-- ==== Sys2Proof/Word.lean ====
section
/-! DEFINITION. The words the device moves and the sizes of its tables (00_scope, R1, R4, R31, R50, R119). -/

namespace Sys2Proof

/-- One byte of a frame (R153). -/
abbrev Byte := BitVec 8

/-- A 16-bit field that wraps: a sequence number (R72), a review sequence number (R87), a frame check (R154). -/
abbrev Word16 := BitVec 16

/-- One sample: a 16-bit two's complement value (00_scope, Units of sound). -/
abbrev Sample := BitVec 16

/-- A channel number 0..47 (R4). -/
abbrev Chan := Fin 48

/-- A profile slot number 0..15 (R50). -/
abbrev Slot := Fin 16

/-- A letter record index 0..95 (R1). -/
abbrev LetterIx := Fin 96

/-- The number of block locations (R119). -/
def nLocations : Nat := 262144

/-- The number of segment records in the Segment Pool (R31). -/
def nSegments : Nat := 16384

/-- The largest value of a 32-bit counter, letter number or ticket (R3, R99, R178). -/
def max32 : Nat := 4294967295

/-- The largest duration, length, generation or sequence value (R1, R50, R72). -/
def max16 : Nat := 65535

/-- The samples of a block (00_scope, Units of sound). -/
def blockSamples : Nat := 256

/-- The samples of an audio frame (00_scope, Units of sound). -/
def frameSamples : Nat := 64

end Sys2Proof
end

