-- ==== Sys2Proof/Syntax.lean ====
section
/-! DEFINITION. The commands: one constructor for each row of spec/opcode_table.json, and the types of their operands.
A command is one of the part's steps, whole and indivisible (95_what_each_step_holds.md). -/

namespace Sys2Proof

/-- The two trunk links (R153). -/
inductive Link where
  | station
  | pool
deriving DecidableEq, Repr

/-- The mode of a channel entry (R136, R142). -/
inductive Mode where
  | blocked
  | compress
  | bypass
deriving DecidableEq, Repr

/-- A priority class (R1). -/
inductive Priority where
  | routine
  | urgent
deriving DecidableEq, Repr

/-- One set of the six settings of a channel entry (R136). -/
structure Settings where
  mode    : Mode
  author  : Nat
  slot    : Slot
  cls     : Priority
  maxDur  : Nat
  minutes : Nat
deriving DecidableEq, Repr

/-- The contents of a profile slot (R51): W, K_init, STEP[0..63], ADJ[0..7], T_enter, T_leave, H and CAP. -/
structure Profile where
  w      : Nat
  kInit  : Nat
  step   : List Nat
  adj    : List Int
  tEnter : Nat
  tLeave : Nat
  hang   : Nat
  cap    : Nat
deriving DecidableEq, Repr

/-- The three results of a read of a block location (R127). -/
inductive ReadResult where
  | good
  | corrected
  | uncorrectable
deriving DecidableEq, Repr, Inhabited

/-- A bit of a location's stored contents that is in error (R127): the check group it lies in and its number in the group, 0..63 the
data bits and 64 upward the check bits, of which the spec gives no number. A header of at most 64 bits and a code field of 1,024
make 17 groups (R61, R64; log entry 11). -/
structure BitError where
  group : Fin 17
  bit   : Nat
deriving DecidableEq, Repr

/-- An error that arose in a stored table copy before the command's own reads: the copy then holds the contents given
here, and its check bits no longer agree with them (R55, R137). It is the world outside that says so, as an operand of
the commands whose step tests a parity (log entry 4). -/
inductive Upset where
  | inForce (ch : Chan) (contents : Settings)
  | pendingCopy (ch : Chan) (contents : Settings)
  | profile (slot : Slot) (contents : Profile)
deriving DecidableEq, Repr

/-- The blocks that make detections (R173, table of kinds). -/
inductive Detector where
  | memory
  | profileTable
  | channelTable
deriving DecidableEq, Repr

/-- A notice that reaches the Letter Controller from another block: a profile slot has become DAMAGED (R55), or the Block
Memory Controller has entered FAILED (R131). -/
inductive DeviceNotice where
  | profile (slot : Slot)
  | failed
deriving DecidableEq, Repr

/-- Where a force-stop that the Letter Controller takes as a step of its own comes from (R18): the Coder's MEMORY report on a
channel, or a device notice. -/
inductive StopSource where
  | memory (ch : Chan)
  | notice (n : DeviceNotice)
deriving DecidableEq, Repr

/-- What happens on a link's receive line: what its line receiver reports, a signal or none (R156), and the bytes that have arrived (R153). -/
structure Arrival where
  signal : Bool
  bytes  : List Byte
deriving DecidableEq, Repr

/-- The commands. Operands: `us` lists the errors that arose in the tables before the command (see `Upset`), `found` the bit errors
that arose in a location before a read of it completed (see `BitError`); `ch` is a channel number, for a frame the byte the frame
carries. `line` is what has happened on a link, and `bytes` are the bytes that came before its signal went. A command that names a frame
is the arrival of that frame's bytes (R153); `rest` is its channel byte and its payload. -/
inductive Instr where
  -- links and resets
  | powerOn
  | frameReceived (link : Link) (line : Arrival) (us : List Upset)
  | signalLoss (link : Link) (bytes : List Byte) (us : List Upset)
  | audio (ch : Byte) (seq : Word16) (samples : List Sample) (us : List Upset)
  | key (ch : Byte) (code : Byte) (count : Word16) (us : List Upset)
  | stationFrameDropped (kind : Byte) (rest : Byte × List Byte)
  -- the keys the Letter Controller takes
  | recordInsert (ch : Chan) (us : List Upset)
  | recordOverwrite (ch : Chan) (us : List Upset)
  | stop (ch : Chan) (us : List Upset)
  | cancelTake (ch : Chan) (us : List Upset)
  | rewind (ch : Chan) (us : List Upset)
  | forward (ch : Chan) (us : List Upset)
  | toStart (ch : Chan) (us : List Upset)
  | toEnd (ch : Chan) (us : List Upset)
  | review (ch : Chan) (us : List Upset)
  | endLetter (ch : Chan) (us : List Upset)
  | urgentOn (ch : Chan) (us : List Upset)
  | urgentOff (ch : Chan) (us : List Upset)
  | recall (ch : Chan) (us : List Upset)
  | discardArm (ch : Chan) (us : List Upset)
  | discard (ch : Chan) (us : List Upset)
  | unknownKeyCode (ch : Chan) (us : List Upset)
  -- the pool link
  | mgmtRequest (payload : List Byte)
  | pause
  | go
  | poolFrameDropped (kind : Byte) (rest : Byte × List Byte)
  -- execution of the head of the request queue
  | badRequest
  | identify
  | readChannel
  | writeChannel
  | readProfile
  | writeProfile
  | clearProfile
  | readLetter
  | listLetters
  | forceClose
  | abortLetter
  | holdDrain
  | releaseDrain
  | readFaults
  | clearFaults
  | setNotices
  | readCounters
  | clearCounters
  | setLetterBase
  | setPatrol
  | softReset
  | resetEvent (us : List Upset)
  -- timers
  | idleExpiry (ch : Chan)
  | paceExpiry (ch : Chan) (us : List Upset)
  | patrolVisit
  | accessTimeout
  -- block memory
  | arbiterGrant
  | initWriteComplete
  | coderWriteComplete
  | playerReadComplete (found : List BitError) (us : List Upset)
  | drainReadComplete (found : List BitError)
  | patrolReadComplete (found : List BitError)
  -- messages between blocks
  | coderService (us : List Upset)
  | blockOutcome (ch : Chan)
  | endOfTake (ch : Chan) (us : List Upset)
  | forceStop (src : StopSource)
  | conversionRequest
  | conversionAnswer
  | detection (src : Detector)
  | noLiveLetterNotice (ch : Chan) (us : List Upset)
  | takeFinishing (ch : Chan)
  | ringEmptying (ch : Chan)
  -- the drain
  | drainStart
  | letterHead
  | bodyRecord
  | block
  | letterEnd
  | letterResume
  | suspension
  | pendingAbort
  | letterAbandon
  | suspendedAbandon
  -- the transmitters
  | stationFrameBoundary
  | poolFrameBoundary
  | reviewStoppedByTheDevice (n : DeviceNotice) (us : List Upset)
deriving DecidableEq, Repr

end Sys2Proof
end

