-- ==== Sys2Proof/Decode.lean ====
section
/-! DEFINITION. Words that spell commands: the table gives no row bits, so no word spells one. -/

namespace Sys2Proof

/-- The command that a word of the table's bits spells. No row of opcode_table.json gives bits: a command is an event, not a word. -/
def decodeTableWord (_nbits _w : Nat) : Option Instr := none

end Sys2Proof
end

