-- ==== Sys2Proof/Config.lean ====
section
/-! DEFINITION. What an implementation fixes and the spec leaves open. -/

namespace Sys2Proof

/-- The serial number that IDENTIFY returns: a 64-bit number set at manufacture, different for each device (R167). It has no
body: a statement about it holds whatever the number is (log entry 1). -/
opaque Config.serialNumber : BitVec 64

/-- What the code of a check group makes of three or more bits in error, given the numbers of those bits: R127 says what it does with
one and with two. It has no body (log entry 11). -/
opaque Config.manyBitErrors : List Nat → ReadResult

/-- What the coding arithmetic gives where the parameters read are no valid profile, which a slot that is READY always holds (R51):
whether the block has SAT, its 128-byte code field, and the final step index. Only a read of an EMPTY slot delivers such parameters,
whose contents are all zero (R50, R53), and the rules of coding then divide by a STEP of 0. It has no body (log entry 31). -/
opaque Config.unprofiledCode : Profile → Nat → List Sample → Bool × Vector Byte 128 × Fin 64

end Sys2Proof
end

