-- ==== Sys2Proof/Machine/State.lean ====
section
/-! DEFINITION. The state of the device, block by block, as plain data, and the state right after power-on. Every field is named
by a rule of the spec (INVENTORY.md, State); a field of the model's own says so. -/

namespace Sys2Proof.Machine

/-! ### Letters, takes and segments (R1, R2, R12, R30) -/

/-- One entry of a speech segment: a block location or a damaged placeholder (R30). -/
inductive Handle where
  | loc (n : Nat)
  | placeholder
deriving DecidableEq, Repr

/-- The cause of a gap entry and of a GAP segment (R13, R30, R70). -/
inductive GapCause where
  | overrun
  | sequence
deriving DecidableEq, Repr

/-- A segment record (R30). A GAP holds no duration: every GAP record of a list has duration 1 (R30). -/
inductive Segment where
  | speech (hs : List Handle)
  | silence (dur : Nat)
  | gap (cause : GapCause)
deriving DecidableEq, Repr

/-- The mode of a take (R12). -/
inductive TakeMode where
  | insert
  | overwrite
deriving DecidableEq, Repr

/-- The causes of a force-stop (R18), also the causes a key reply can carry (R8, R20). -/
inductive StopCause where
  | length
  | memory
  | resource
  | link
  | entry
  | profile
  | failed
deriving DecidableEq, Repr

/-- A pending take (R12). Its length L is the sum of the durations of its list (R35), see `Take.len`. -/
structure Take where
  mode          : TakeMode
  start         : Nat
  list          : List Segment
  serial        : Nat
  stopOwed      : Bool
  closeAtCommit : Bool
  causes        : List StopCause
deriving DecidableEq, Repr

/-- The state of a letter that is not FREE, with what R2 says is present in that state and in no other: the pending take in
RECORDING and FINISHING, the queue ticket in QUEUED, DRAINING and SUSPENDED. -/
inductive Phase where
  | opened
  | recording (t : Take)
  | finishing (t : Take)
  | reviewing
  | queued (ticket : Nat)
  | draining (ticket : Nat)
  | suspended (ticket : Nat)
deriving DecidableEq, Repr

/-- A letter (R1). Its length is the sum of the durations of its committed list (R32), see `Letter.length`. -/
structure Letter where
  number     : Nat
  chan       : Chan
  author     : Nat
  cls        : Priority
  slot       : Slot
  generation : Nat
  w          : Nat
  cap        : Nat
  maxDur     : Nat
  cursor     : Nat
  list       : List Segment
  phase      : Phase
deriving DecidableEq, Repr

/-- A key with its count (R5), by the code the KEY frame carries (11.2). `spoilt` is the model's own: the read that its frame made
found the parity of the entry wrong, so the key is answered BLOCKED whatever the entry has become (R148). -/
structure Key where
  code   : Byte
  count  : Nat
  spoilt : Bool := false
deriving DecidableEq, Repr

/-- The dictation context of a channel (R4). The idle timer is stopped (none) or running, with the minutes it was last set to (R7). -/
structure Context where
  current    : Option LetterIx
  lastClosed : Option (LetterIx × Nat)
  held       : Option Key
  armed      : Bool
  idle       : Option Nat
  takeSerial : Nat
deriving DecidableEq, Repr

/-- The results of a key reply (R8). -/
inductive KeyResult where
  | done
  | refused
  | noLetter
  | tooLate
  | full
  | empty
  | disarmed
  | busy
  | blocked
  | notReady
  | fault
deriving DecidableEq, Repr

/-- A key reply (R8); the key is given by its code, 80h TIMEOUT and 81h LIMIT included (11.2). -/
structure KeyReply where
  code   : Byte
  result : KeyResult
  cause  : Option StopCause
  cursor : Nat
  length : Nat
  number : Nat
deriving DecidableEq, Repr

/-! ### Capture and the Coder (R70, R71, R79) -/

/-- An entry of a capture ring (R70). -/
inductive RingEntry where
  | block (samples : List Sample) (filled padded : Bool)
  | gap (cause : GapCause) (count : Nat)
deriving DecidableEq, Repr

/-- The capture state of a channel (R71). -/
inductive CaptureState where
  | idle
  | capturing
  | finishing
deriving DecidableEq, Repr

/-- The capture ring of a channel with its capture state and expected sequence number (R70, R71). -/
structure Capture where
  ring     : List RingEntry
  state    : CaptureState
  expected : Option Word16
deriving DecidableEq, Repr

/-- The state of a channel's silence detector, with the hang count in HANG (R58). -/
inductive Talk where
  | talk
  | hang (count : Nat)
  | quiet
deriving DecidableEq, Repr

/-- The Coder's state for one channel (R79). `number` is the model's own: the letter whose take started last on the channel, which a
detection of the Coder's reads names (R55; log entry 23). -/
structure CoderChan where
  serial   : Nat
  number   : Nat
  slot     : Slot
  carry    : Nat
  detector : Talk
  halted   : Bool
  withheld : Bool
deriving DecidableEq, Repr

/-- The four conditions of a coded block (R65). -/
structure Conditions where
  sat    : Bool
  clip   : Bool
  filled : Bool
  padded : Bool
deriving DecidableEq, Repr

/-- The coded form of a block: its header (R61) and its 128-byte code field (R64). -/
structure CodedBlock where
  p0   : Sample
  k0   : Nat
  w    : Nat
  cond : Conditions
  code : List Byte
deriving DecidableEq, Repr

/-- The Coder's write in progress (R79). -/
structure CodedWrite where
  chan   : Chan
  serial : Nat
  loc    : Nat
  block  : CodedBlock
deriving DecidableEq, Repr

/-- The Coder (R79): its state for each channel, the arbiter pointer and the write in progress. -/
structure Coder where
  chans : Vector CoderChan 48
  ptr   : Chan
  write : Option CodedWrite
deriving DecidableEq, Repr

/-! ### The Player (R87) -/

/-- The content mark of a review block (R89, R92). -/
inductive Content where
  | speech
  | silence
  | gap
  | damaged
deriving DecidableEq, Repr

/-- A block that is ready to play: its position, content, conditions and 256 samples (R89, R92). -/
structure BlockAudio where
  pos     : Nat
  content : Content
  cond    : Conditions
  samples : List Sample
deriving DecidableEq, Repr

/-- The play block: the block whose frames are going out and how many of its four have been sent (R87, R94). -/
structure PlayBlock where
  audio : BlockAudio
  sent  : Nat
deriving DecidableEq, Repr

/-- The next block: OBTAINING, or READY with its audio (R87). -/
inductive NextBlock where
  | obtaining (pos : Nat)
  | ready (audio : BlockAudio)
deriving DecidableEq, Repr

/-- A PLAYING review context (R87). The walk place is a segment index and an offset; `pace` says that the pace timer runs. -/
structure Review where
  letter : LetterIx
  play   : Option PlayBlock
  next   : Option NextBlock
  walk   : Option (Nat × Nat)
  pace   : Bool
  late   : Bool
deriving DecidableEq, Repr

/-- The review context of a channel: IDLE (none) or PLAYING, and the review sequence number (R87). -/
structure PlayerChan where
  review : Option Review
  seq    : Word16
deriving DecidableEq, Repr

/-- A review audio frame, less its channel (R92). -/
structure ReviewFrame where
  seq     : Word16
  pos     : Nat
  index   : Nat
  content : Content
  cond    : Conditions
  samples : List Sample
deriving DecidableEq, Repr

/-! ### Block memory (R119, R121, R130, R133) -/

/-- The controller states (R121). -/
inductive CtrlState where
  | init
  | ready
  | failed
deriving DecidableEq, Repr

/-- What a block location stores (R127): the coded block as the Coder wrote it, and the bits of it and of its check bits that are in
error now, in ascending order, each once. -/
structure Stored where
  block : CodedBlock
  errs  : List BitError
deriving DecidableEq, Repr

/-- The bookkeeping of a location that is neither on a list nor UNWRITTEN: ALLOCATED, or RELEASING (R119). -/
structure Held where
  loc       : Nat
  releasing : Bool
  writing   : Bool
deriving DecidableEq, Repr

/-- The letter, channel and timeline position that a reader passes with its request (R128). -/
structure ReadContext where
  number : Nat
  chan   : Chan
  pos    : Nat
deriving DecidableEq, Repr

/-- Who makes an access (R130). A Player read is `wanted` until its review is stopped (R96). -/
inductive Claim where
  | initWrite
  | coderWrite
  | playerRead (ch : Chan) (wanted : Bool) (ctx : ReadContext)
  | drainRead (ctx : ReadContext)
  | patrolRead
deriving DecidableEq, Repr

/-- A request of the arbiter or a granted access (R130). -/
structure Access where
  claim : Claim
  loc   : Nat
deriving DecidableEq, Repr

/-- The Block Memory Controller. Every location has one bookkeeping entry, held once: FREE locations stand in `free` (runs of
ascending locations, in list order), RETIRED ones in `retired`, ALLOCATED and RELEASING ones in `held`, and the rest are
UNWRITTEN (R119, R120); see `BlockMemory.status`. The reads in progress of R119 are those in `waiting` and `granted`. -/
structure BlockMemory where
  ctrl      : CtrlState
  initNext  : Nat
  free      : List (Nat × Nat)
  retired   : List Nat
  held      : List Held
  weak      : List Nat
  cells     : List (Nat × Stored)
  waiting   : List Access
  granted   : Option Access
  patrolPtr : Nat
deriving DecidableEq, Repr

/-! ### The drain (R98, R101, R104) -/

/-- The kind of the next record of a delivery (R101). -/
inductive NextRecord where
  | head
  | resume
  | body
  | ending
  | abandon
deriving DecidableEq, Repr

/-- A delivery context (R101). The walk place is a segment index and, for a SPEECH segment, a handle index. -/
structure Delivery where
  letter  : LetterIx
  number  : Nat
  next    : NextRecord
  seg     : Nat
  handle  : Nat
  pos     : Nat
  body    : Nat
  damaged : Nat
  abort   : Bool
deriving DecidableEq, Repr

/-- The Drain Engine (R98, R99, R101). `forming` is the position of the BLOCK record that awaits its read. -/
structure Drain where
  issue     : List LetterIx
  ticket    : Nat
  delivery  : Option Delivery
  suspended : Option Delivery
  hold      : Bool
  forming   : Option Nat
deriving DecidableEq, Repr

/-- The cause of a delivered gap (R104). -/
inductive RecordCause where
  | overrun
  | sequence
  | damaged
deriving DecidableEq, Repr

/-- The drain records (R104); every one begins with the letter number. -/
inductive DrainRecord where
  | letterHead (number : Nat) (chan : Chan) (author : Nat) (cls : Priority) (slot : Slot) (generation w length segments ticket : Nat)
  | block (number pos : Nat) (b : CodedBlock)
  | silence (number pos trueDur playedDur : Nat)
  | gap (number pos : Nat) (cause : RecordCause)
  | letterResume (number walkPos body : Nat)
  | letterEnd (number body blocks damaged : Nat)
  | letterAbandon (number walkPos body : Nat)
deriving DecidableEq, Repr

/-! ### The Channel Table and the Profile Table (R50, R136) -/

/-- A copy of an entry's settings and whether its check bits agree with them (R137). -/
structure Copy where
  settings : Settings
  parityOk : Bool
deriving DecidableEq, Repr

/-- A channel entry (R136): status GOOD or DAMAGED, in-force copy, optional pending copy. -/
structure ChannelEntry where
  damaged     : Bool
  inForce     : Copy
  pendingCopy : Option Copy
deriving DecidableEq, Repr

/-- The status of a profile slot (R50, R52). -/
inductive SlotStatus where
  | empty
  | ready
  | damaged
deriving DecidableEq, Repr

/-- A profile slot (R50). -/
structure ProfileSlot where
  status     : SlotStatus
  contents   : Profile
  generation : Nat
  refs       : Nat
  parityOk   : Bool
deriving DecidableEq, Repr

/-! ### Faults (R173) -/

/-- The kinds of detection (R173). -/
inductive FaultKind where
  | corrected
  | uncorrected
  | tableParity
  | noResponse
deriving DecidableEq, Repr

/-- The location a detection names (R173). -/
inductive FaultPlace where
  | location (n : Nat)
  | profileSlot (slot : Slot)
  | channelEntry (ch : Chan) (pendingCopy : Bool)
deriving DecidableEq, Repr

/-- The context of a detection, which a detection on its way to the Fault Record is (R173). -/
structure FaultContext where
  kind   : FaultKind
  place  : FaultPlace
  number : Option Nat
  chan   : Option Chan
  pos    : Option Nat
deriving DecidableEq, Repr

/-- The seen flag and occurrence count of one kind (R173). -/
structure FaultTally where
  seen  : Bool
  count : Nat
deriving DecidableEq, Repr

/-- The Fault Record (R173). -/
structure FaultRecord where
  corrected   : FaultTally
  uncorrected : FaultTally
  tableParity : FaultTally
  noResponse  : FaultTally
  context     : Option FaultContext
deriving DecidableEq, Repr

/-- A FAULT-NOTICE as made (R175). -/
structure Notice where
  kind    : FaultKind
  count   : Nat
  context : FaultContext
deriving DecidableEq, Repr

/-- The notice levels (R175). -/
inductive NoticeLevel where
  | off
  | fatal
  | serious
  | all
deriving DecidableEq, Repr

/-! ### Management (R164, R178) -/

/-- A management request: kind byte, tag and fields (11.3). -/
structure Request where
  kind   : Byte
  tag    : Word16
  fields : List Byte
deriving DecidableEq, Repr

/-- The statuses of a reply (10.2). -/
inductive Status where
  | ok
  | badRequest
  | badField
  | notFound
  | inUse
  | wrongState
  | starting
deriving DecidableEq, Repr

/-- A management reply: the request's kind byte and tag, the status and the fields returned (11.3). -/
structure Reply where
  kind   : Byte
  tag    : Word16
  status : Status
  fields : List Byte
deriving DecidableEq, Repr

/-- The counters of a channel (R178), in the order of 11.3. -/
structure ChanCounters where
  accepted    : Nat
  stray       : Nat
  concealed   : Nat
  resyncs     : Nat
  overruns    : Nat
  coded       : Nat
  silent      : Nat
  satBlocks   : Nat
  clipBlocks  : Nat
  keysTaken   : Nat
  keysRefused : Nat
deriving DecidableEq, Repr

/-- The part-wide counters and those of the links (R178), in the order of 11.3. -/
structure PartCounters where
  stationBad       : Nat
  stationHunts     : Nat
  poolBad          : Nat
  poolHunts        : Nat
  keyOverruns      : Nat
  reviewDrops      : Nat
  badChannel       : Nat
  bypassDrops      : Nat
  mgmtDrops        : Nat
  lettersDrained   : Nat
  lettersAbandoned : Nat
  locsRetired      : Nat
deriving DecidableEq, Repr

/-- The Management Handler (R164). -/
structure Management where
  queue         : List Request
  executing     : Option Request
  heldReply     : Option Reply
  faults        : FaultRecord
  owed          : List Notice
  level         : NoticeLevel
  chanCounters  : Vector ChanCounters 48
  part          : PartCounters
  letterCounter : Nat
  patrolOn      : Bool
deriving DecidableEq, Repr

/-! ### The ports (R155, R158, R159, R162) -/

/-- A link's receiver: in SYNC or in HUNT, its two runs (R155), whether its line receiver reports a signal (R156), whether in SYNC it
searches for a start pattern after a bad frame (R155), and the bytes that have arrived and that no frame found has used up yet. -/
structure Receiver where
  sync    : Bool
  badRun  : Nat
  goodRun : Nat
  signal  : Bool
  seeking : Bool
  buf     : List Byte
deriving DecidableEq, Repr

/-- A frame the station transmitter is sending (R161). -/
inductive StationFrame where
  | keyReply (ch : Chan) (r : KeyReply)
  | reviewAudio (ch : Chan) (f : ReviewFrame)
deriving DecidableEq, Repr

/-- The Station Port (R155, R159, R161). `sending` none means idle bytes. -/
structure StationPort where
  rx       : Receiver
  replies  : Vector (List KeyReply) 48
  audio    : Vector (List ReviewFrame) 48
  inFlight : Vector Nat 48
  replyPtr : Chan
  audioPtr : Chan
  sending  : Option StationFrame
deriving DecidableEq, Repr

/-- A bypass frame (R150): the channel, whether the station frame was a KEY frame, and its payload byte for byte. -/
structure BypassFrame where
  chan    : Chan
  isKey   : Bool
  payload : List Byte
deriving DecidableEq, Repr

/-- A frame of the control queue (R162). -/
inductive ControlFrame where
  | reply (r : Reply)
  | notice (n : Notice)
deriving DecidableEq, Repr

/-- A frame the pool transmitter is sending (R162). -/
inductive PoolFrame where
  | control (f : ControlFrame)
  | bypass (f : BypassFrame)
  | drain (r : DrainRecord)
deriving DecidableEq, Repr

/-- The flow state of the Pool Port (R158). -/
inductive Flow where
  | go
  | pause
deriving DecidableEq, Repr

/-- The Pool Port (R155, R158, R162). `sending` none means idle bytes. -/
structure PoolPort where
  rx      : Receiver
  flow    : Flow
  control : List ControlFrame
  bypass  : List BypassFrame
  slot    : Option DrainRecord
  sending : Option PoolFrame
deriving DecidableEq, Repr

/-! ### What passes between blocks (R180, step 3) -/

/-- A block outcome (R13). -/
inductive BlockOutcome where
  | coded (loc : Nat)
  | silent
  | gap (cause : GapCause)
deriving DecidableEq, Repr

/-- A report of the Coder to the Letter Controller, with the take serial it carries: a block outcome (R13), a MEMORY force-stop
(R82) or the end-of-take report (R85). -/
inductive CoderReport where
  | outcome (serial : Nat) (o : BlockOutcome)
  | memoryStop (serial : Nat)
  | endOfTake (serial : Nat)
deriving DecidableEq, Repr

/-- A request of the Letter Controller to a channel's capture ring (R71). -/
inductive CaptureRequest where
  | finishing
  | finishingDiscard
  | cancelled
deriving DecidableEq, Repr

/-- The requests, reports and answers that their receiver has not yet taken (R180 step 3), each list oldest first. -/
structure Wires where
  keys            : Vector (List Key) 48
  reports         : Vector (List CoderReport) 48
  captureRequests : Vector (List CaptureRequest) 48
  noLive          : Vector Nat 48
  takeStops       : List DeviceNotice
  reviewStops     : List DeviceNotice
  detections      : List FaultContext
  convRequests    : List Nat
  convAnswers     : List (Nat × Option ReadContext)
deriving DecidableEq, Repr

/-- The reasons the machine stops with a fault. There are none: the spec gives every step of the part an effect on every state,
so no command of the table ever faults. Safe: nothing raises a fault. -/
inductive Fault where
deriving DecidableEq, Repr

/-- The reasons a command has no meaning. -/
inductive Refusal where
  /-- Raised by an arm of `exec` whose command has no meaning yet, naming it. Safe: the machine stops. No arm raises it. -/
  | notModelled (mnemonic : String)
deriving DecidableEq, Repr

/-- The state of the device, and the queue of commands that wait, first in, first out. -/
structure State where
  pending  : List Instr
  station  : StationPort
  pool     : PoolPort
  table    : Vector ChannelEntry 48
  profiles : Vector ProfileSlot 16
  letters  : Vector (Option Letter) 96
  ctxs     : Vector Context 48
  freeSegs : Nat
  capture  : Vector Capture 48
  coder    : Coder
  player   : Vector PlayerChan 48
  drain    : Drain
  mem      : BlockMemory
  mgmt     : Management
  wires    : Wires
deriving DecidableEq, Repr

/-! ### Reset values -/

/-- A dictation context after power-on and SOFT-RESET (R4). -/
def Context.reset : Context :=
  { current := none, lastClosed := none, held := none, armed := false, idle := none, takeSerial := 0 }

/-- A capture ring after power-on and SOFT-RESET (R70, R71). -/
def Capture.reset : Capture := { ring := [], state := .idle, expected := none }

/-- The Coder's state of a channel after power-on and SOFT-RESET (R79). -/
def CoderChan.reset : CoderChan :=
  { serial := 0, number := 0, slot := 0, carry := 0, detector := .talk, halted := false, withheld := false }

/-- The Coder after power-on and SOFT-RESET (R79). -/
def Coder.reset : Coder := { chans := Vector.replicate 48 CoderChan.reset, ptr := 47, write := none }

/-- A review context after power-on and SOFT-RESET (R87). -/
def PlayerChan.reset : PlayerChan := { review := none, seq := 0 }

/-- The Drain Engine after power-on and SOFT-RESET (R98, R99, R101). -/
def Drain.reset : Drain :=
  { issue := [], ticket := 1, delivery := none, suspended := none, hold := false, forming := none }

/-- Block memory at power-on: INIT begins with the write of location 0; every location is UNWRITTEN and none is weak (R119, R122, R133). -/
def BlockMemory.reset : BlockMemory :=
  { ctrl := .init, initNext := 0, free := [], retired := [], held := [], weak := [], cells := [],
    waiting := [{ claim := .initWrite, loc := 0 }], granted := none, patrolPtr := 0 }

/-- A channel entry after power-on (R136). -/
def ChannelEntry.reset : ChannelEntry :=
  { damaged := false,
    inForce := { settings := { mode := .blocked, author := 0, slot := 0, cls := .routine, maxDur := 65535, minutes := 0 },
                 parityOk := true },
    pendingCopy := none }

/-- Profile contents that are all zero (R50, R53). -/
def zeroProfile : Profile :=
  { w := 0, kInit := 0, step := List.replicate 64 0, adj := List.replicate 8 0, tEnter := 0, tLeave := 0, hang := 0, cap := 0 }

/-- A profile slot after power-on (R50). That its parity agrees with its all-zero contents is the model's reading: R50 sets the parity at
a write or a clear and gives it no value at power-on (DEDUCED, log entry 30). -/
def ProfileSlot.reset : ProfileSlot :=
  { status := .empty, contents := zeroProfile, generation := 0, refs := 0, parityOk := true }

/-- An empty Fault Record (R173). -/
def FaultRecord.reset : FaultRecord :=
  { corrected := { seen := false, count := 0 }, uncorrected := { seen := false, count := 0 },
    tableParity := { seen := false, count := 0 }, noResponse := { seen := false, count := 0 }, context := none }

/-- Counters at 0 (R178). -/
def ChanCounters.zero : ChanCounters :=
  { accepted := 0, stray := 0, concealed := 0, resyncs := 0, overruns := 0, coded := 0, silent := 0, satBlocks := 0,
    clipBlocks := 0, keysTaken := 0, keysRefused := 0 }

/-- Counters at 0 (R178). -/
def PartCounters.zero : PartCounters :=
  { stationBad := 0, stationHunts := 0, poolBad := 0, poolHunts := 0, keyOverruns := 0, reviewDrops := 0, badChannel := 0,
    bypassDrops := 0, mgmtDrops := 0, lettersDrained := 0, lettersAbandoned := 0, locsRetired := 0 }

/-- The Management Handler after power-on (R164). -/
def Management.reset : Management :=
  { queue := [], executing := none, heldReply := none, faults := FaultRecord.reset, owed := [], level := .serious,
    chanCounters := Vector.replicate 48 ChanCounters.zero, part := PartCounters.zero, letterCounter := 1, patrolOn := true }

/-- A receiver after power-on (R155), with no byte of a frame received. That a signal is present is the model's choice for the state
right after reset: R156 leaves it to the line (DESIGN CHOICE, log entry 14). -/
def Receiver.reset : Receiver :=
  { sync := false, badRun := 0, goodRun := 0, signal := true, seeking := false, buf := [] }

/-- The Station Port after power-on (R155, R159, R161). -/
def StationPort.reset : StationPort :=
  { rx := Receiver.reset, replies := Vector.replicate 48 [], audio := Vector.replicate 48 [],
    inFlight := Vector.replicate 48 0, replyPtr := 47, audioPtr := 47, sending := none }

/-- The Pool Port after power-on (R155, R158, R162). -/
def PoolPort.reset : PoolPort :=
  { rx := Receiver.reset, flow := .go, control := [], bypass := [], slot := none, sending := none }

/-- Nothing in passage between blocks (R180). -/
def Wires.reset : Wires :=
  { keys := Vector.replicate 48 [], reports := Vector.replicate 48 [], captureRequests := Vector.replicate 48 [],
    noLive := Vector.replicate 48 0, takeStops := [], reviewStops := [], detections := [], convRequests := [], convAnswers := [] }

/-- The device right after power-on. -/
def State.reset : State :=
  { pending := [], station := StationPort.reset, pool := PoolPort.reset, table := Vector.replicate 48 ChannelEntry.reset,
    profiles := Vector.replicate 16 ProfileSlot.reset, letters := Vector.replicate 96 none,
    ctxs := Vector.replicate 48 Context.reset, freeSegs := nSegments, capture := Vector.replicate 48 Capture.reset,
    coder := Coder.reset, player := Vector.replicate 48 PlayerChan.reset, drain := Drain.reset, mem := BlockMemory.reset,
    mgmt := Management.reset, wires := Wires.reset }

end Sys2Proof.Machine
end

