-- ==== Sys2Proof/Machine/Bytes.lean ====
section
/-! DEFINITION. Byte order, the line's idle byte and start pattern, the frame check and bit packing: fields are sent most significant byte first, and codes are packed most
significant bit first (00_scope, Byte order; R64, R154). -/

namespace Sys2Proof.Machine

/-- A 1-byte field. -/
def byte1 (n : Nat) : List Byte := [BitVec.ofNat 8 n]

/-- A 2-byte field, most significant byte first. -/
def byte2 (n : Nat) : List Byte := [BitVec.ofNat 8 (n / 256), BitVec.ofNat 8 n]

/-- A 3-byte field, most significant byte first. -/
def byte3 (n : Nat) : List Byte := BitVec.ofNat 8 (n / 65536) :: byte2 n

/-- A 4-byte field, most significant byte first. -/
def byte4 (n : Nat) : List Byte := byte2 (n / 65536) ++ byte2 n

/-- An 8-byte field, most significant byte first. -/
def byte8 (n : Nat) : List Byte := byte4 (n / 4294967296) ++ byte4 n

/-- The number that bytes sent most significant first spell. -/
def natOfBytes (bs : List Byte) : Nat := bs.foldl (fun n b => 256 * n + b.toNat) 0

/-- The `len`-byte field that begins at `at'`; a missing byte reads as 0. -/
def fieldAt (bs : List Byte) (at' len : Nat) : Nat := natOfBytes ((bs.drop at').take len)

/-- The idle byte (R153). -/
def idleByte : Byte := 0x96#8

/-- The first byte of the start pattern (R153). -/
def startByte : Byte := 0xD5#8

/-- The second byte of the start pattern (R153). -/
def startSecond : Byte := 0x3C#8

/-- A sample as its two bytes, most significant first (R92). -/
def sampleBytes (x : Sample) : List Byte := byte2 x.toNat

/-- The samples of a payload, two bytes each (11.2); an odd last byte is no sample. -/
def samplesOfBytes : List Byte → List Sample
  | hi :: lo :: rest => (hi ++ lo) :: samplesOfBytes rest
  | _ => []

/-- A signed byte (11.3, ADJ). -/
def signedByte (b : Byte) : Int := b.toInt

/-- The byte of a signed value (11.3, ADJ). -/
def byteOfSigned (z : Int) : Byte := BitVec.ofInt 8 z

/-- One bit through the check register of polynomial x^16+x^12+x^5+1 (R154). -/
def crcBit (r : Word16) (bit : Bool) : Word16 :=
  if r.msb ^^ bit then (r <<< 1) ^^^ 0x1021#16 else r <<< 1

/-- The bits of a byte, most significant first. -/
def bitsOfByte (b : Byte) : List Bool :=
  [b.getLsbD 7, b.getLsbD 6, b.getLsbD 5, b.getLsbD 4, b.getLsbD 3, b.getLsbD 2, b.getLsbD 1, b.getLsbD 0]

/-- One byte through the check register, most significant bit first (R154). -/
def crcByte (r : Word16) (b : Byte) : Word16 := (bitsOfByte b).foldl crcBit r

/-- The frame check over header and payload: the register starts at all ones and the result is not inverted (R154). -/
def frameCheck (bs : List Byte) : Word16 := bs.foldl crcByte 0xFFFF#16

/-- The number that up to eight bits spell, the missing low ones 0. -/
def byteOfBits (bits : List Bool) : Byte :=
  BitVec.ofNat 8 ((List.range 8).foldl (fun n i => 2 * n + (bits.getD i false).toNat) 0)

/-- The first `n` bytes of a bit string, filled with zero bits (R64). -/
def packBits : Nat → List Bool → List Byte
  | 0, _ => []
  | n + 1, bits => byteOfBits (bits.take 8) :: packBits n (bits.drop 8)

/-- The lowest `w` bits of a code, most significant first. -/
def bitsOfCode : Nat → Nat → List Bool
  | 0, _ => []
  | w + 1, c => c.testBit w :: bitsOfCode w c

/-- The number a bit string spells, most significant bit first. -/
def natOfBits (bits : List Bool) : Nat := bits.foldl (fun n b => 2 * n + b.toNat) 0

/-- The 128-byte code field that holds the codes of `w` bits, the rest zero (R64). -/
def packCodes (w : Nat) (codes : List Nat) : List Byte :=
  packBits 128 (codes.flatMap (bitsOfCode w))

/-- The first `n` codes of `w` bits of a bit string (R64, R66). -/
def takeCodes (w : Nat) : Nat → List Bool → List Nat
  | 0, _ => []
  | n + 1, bits => natOfBits (bits.take w) :: takeCodes w n (bits.drop w)

/-- The 255 codes of a code field; pad bits and zero bytes are not read (R64, R66). -/
def unpackCodes (w : Nat) (field : List Byte) : List Nat := takeCodes w 255 (field.flatMap bitsOfByte)

end Sys2Proof.Machine
end

