-- ==== Sys2Proof/WellFormed.lean ====
section
/-! DEFINITION. Which commands are well formed: those whose operands a frame or a stored copy can carry. -/

namespace Sys2Proof

/-- A station frame the Station Port passes on: kind 01h AUDIO with a payload of 130 bytes, or kind 02h KEY with one of 3 (R182). -/
def stationKindFits (kind : Byte) (len : Nat) : Bool :=
  (kind == 0x01#8 && len == 130) || (kind == 0x02#8 && len == 3)

/-- A pool frame the Pool Port acts on or hands on: 22h PAUSE or 23h GO without a payload, or 21h MGMT-REQUEST with 3 payload
bytes or more (R183). -/
def poolKindFits (kind : Byte) (len : Nat) : Bool :=
  (kind == 0x22#8 && len == 0) || (kind == 0x23#8 && len == 0) || (kind == 0x21#8 && decide (3 ≤ len))

/-- Every field of a settings copy lies in its range (R136, R138). -/
def Settings.inRange (s : Settings) : Bool :=
  decide (s.author < 16777216) && decide (1 ≤ s.maxDur) && decide (s.maxDur ≤ max16) && decide (s.minutes ≤ 240)

/-- Every field of a profile lies within its own bounds (R51). -/
def Profile.inRange (p : Profile) : Bool :=
  (p.w == 3 || p.w == 4) && decide (p.kInit ≤ 63) && p.step.length == 64 &&
  p.step.all (fun s => decide (1 ≤ s) && decide (s ≤ 16384)) &&
  p.adj.length == 8 && p.adj.all (fun a => decide (-8 ≤ a) && decide (a ≤ 15)) &&
  decide (p.tEnter ≤ 32767) && decide (p.tLeave ≤ 32767) && decide (p.hang ≤ 15) && decide (p.cap ≤ max16)

/-- The ranges that R51 gives in terms of other fields: the steps do not fall, and T_leave is not below T_enter. -/
def Profile.ordered (p : Profile) : Bool :=
  (p.step.zip p.step.tail).all (fun ab => decide (ab.1 ≤ ab.2)) && decide (p.tEnter ≤ p.tLeave)

/-- A valid profile: every field lies in its range (R51). -/
def Profile.valid (p : Profile) : Bool := p.inRange && p.ordered

/-- An error leaves in every field of a copy a value of the field's range: what the device sends of a damaged copy lies in the ranges
too (R136, R141, R51, R53, R184; log entry 4). -/
def Upset.wellFormed : Upset → Bool
  | .inForce _ c => c.inRange
  | .pendingCopy _ c => c.inRange
  | .profile _ c => c.valid

/-- A command is well formed when its operands are ones the step can come with: frames of their kind's size (R153, R182,
R183), and upsets that the tables have room for. -/
def Instr.wellFormed : Instr → Bool
  | .frameReceived _ _ us => us.all Upset.wellFormed
  | .audio _ _ xs us => xs.length == frameSamples && us.all Upset.wellFormed
  | .stationFrameDropped kind rest => decide (rest.2.length ≤ 300) && !stationKindFits kind rest.2.length
  | .mgmtRequest payload => decide (3 ≤ payload.length) && decide (payload.length ≤ 300)
  | .poolFrameDropped kind rest => decide (rest.2.length ≤ 300) && !poolKindFits kind rest.2.length
  | .signalLoss _ _ us => us.all Upset.wellFormed
  | .key _ _ _ us => us.all Upset.wellFormed
  | .recordInsert _ us => us.all Upset.wellFormed
  | .recordOverwrite _ us => us.all Upset.wellFormed
  | .stop _ us => us.all Upset.wellFormed
  | .cancelTake _ us => us.all Upset.wellFormed
  | .rewind _ us => us.all Upset.wellFormed
  | .forward _ us => us.all Upset.wellFormed
  | .toStart _ us => us.all Upset.wellFormed
  | .toEnd _ us => us.all Upset.wellFormed
  | .review _ us => us.all Upset.wellFormed
  | .endLetter _ us => us.all Upset.wellFormed
  | .urgentOn _ us => us.all Upset.wellFormed
  | .urgentOff _ us => us.all Upset.wellFormed
  | .recall _ us => us.all Upset.wellFormed
  | .discardArm _ us => us.all Upset.wellFormed
  | .discard _ us => us.all Upset.wellFormed
  | .unknownKeyCode _ us => us.all Upset.wellFormed
  | .resetEvent us => us.all Upset.wellFormed
  | .paceExpiry _ us => us.all Upset.wellFormed
  | .playerReadComplete _ us => us.all Upset.wellFormed
  | .coderService us => us.all Upset.wellFormed
  | .endOfTake _ us => us.all Upset.wellFormed
  | .noLiveLetterNotice _ us => us.all Upset.wellFormed
  | .reviewStoppedByTheDevice _ us => us.all Upset.wellFormed
  | .powerOn | .pause | .go | .badRequest | .identify | .readChannel | .writeChannel | .readProfile | .writeProfile
  | .clearProfile | .readLetter | .listLetters | .forceClose | .abortLetter | .holdDrain | .releaseDrain | .readFaults
  | .clearFaults | .setNotices | .readCounters | .clearCounters | .setLetterBase | .setPatrol | .softReset
  | .idleExpiry _ | .patrolVisit | .accessTimeout | .arbiterGrant | .initWriteComplete | .coderWriteComplete
  | .drainReadComplete _ | .patrolReadComplete _ | .blockOutcome _ | .forceStop _ | .conversionRequest
  | .conversionAnswer | .detection _ | .takeFinishing _ | .ringEmptying _ | .drainStart | .letterHead | .bodyRecord
  | .block | .letterEnd | .letterResume | .suspension | .pendingAbort | .letterAbandon | .suspendedAbandon
  | .stationFrameBoundary | .poolFrameBoundary => true

end Sys2Proof
end

