-- ==== Sys2Proof/Machine/Compression.lean ====
section
/-! DEFINITION. Compression arithmetic: energy and CLIP (R56, R57), the silence detector (R58, R59), coding and decoding of a block (R61 to R66). -/

namespace Sys2Proof.Machine

/-- A sample's magnitude, that of -32768 taken as 32767 (R56). -/
def magnitude (x : Sample) : Nat := min x.toInt.natAbs 32767

/-- The energy of a block: the mean of its 256 magnitudes, rounded down (R56). -/
def energy (xs : List Sample) : Nat := (xs.map magnitude).sum / 256

/-- The CLIP condition: an input sample is -32768 or 32767 (R57). -/
def clipped (xs : List Sample) : Bool := xs.any (fun x => x.toInt = -32768 || x.toInt = 32767)

/-- One step of the silence detector: whether the block is coded, and the new state (R59). R59's table has no row for HANG with a count
above H, which a cancelled take's block can meet whose slot has been rewritten with a smaller H since the letter was freed: the hangover
is taken as used up, and the block is silent as with count = H (DESIGN CHOICE, log entry 37). -/
def Talk.step (P : Profile) (e : Nat) : Talk → Bool × Talk
  | .talk =>
    if P.tEnter ≤ e then (true, .talk)
    else if P.hang = 0 then (false, .quiet)
    else (true, .hang 1)
  | .hang n =>
    if P.tEnter ≤ e then (true, .talk)
    else if n < P.hang then (true, .hang (n + 1))
    else (false, .quiet)
  | .quiet => if P.tLeave ≤ e then (true, .talk) else (false, .quiet)

/-- A prediction held within -32768..32767 (R63). -/
def clampSample (p : Int) : Int := max (-32768) (min p 32767)

/-- A step index held within 0..63 (R63). -/
def clampIndex (k : Int) : Nat := (max 0 (min k 63)).toNat

/-- The running state of coding or decoding: prediction p, step index k and whether a prediction was clamped (R62, R63). -/
structure CodeState where
  p   : Int
  k   : Nat
  sat : Bool
deriving DecidableEq, Repr

/-- Steps 2, 4, 5 and 6 of R62: the move of p by the reconstruction of a sign and a magnitude, and the adaptation of k. -/
def CodeState.move (P : Profile) (st : CodeState) (neg : Bool) (q : Nat) : CodeState :=
  let r : Int := ((2 * q + 1) * P.step.getD st.k 0 / 2 : Nat)
  let p := if neg then st.p - r else st.p + r
  { p := clampSample p, k := clampIndex (st.k + P.adj.getD q 0), sat := st.sat || decide (p ≠ clampSample p) }

/-- Steps 1 and 3 of R62: the sign and the magnitude of the difference between the input and p. -/
def quantize (P : Profile) (st : CodeState) (x : Int) : Bool × Nat :=
  let d := x - st.p
  (decide (d < 0), min (2 ^ (P.w - 1) - 1) (d.natAbs / P.step.getD st.k 0))

/-- The code of a sign and a magnitude (R62, step 7). -/
def codeOf (P : Profile) (neg : Bool) (q : Nat) : Nat := neg.toNat * 2 ^ (P.w - 1) + q

/-- The codes of the samples after the first, the reconstruction they give and the state they end in (R62). -/
def codeSamples (P : Profile) : CodeState → List Sample → List Nat × List Int × CodeState
  | st, [] => ([], [], st)
  | st, x :: xs =>
    let nq := quantize P st x.toInt
    let st' := st.move P nq.1 nq.2
    let rest := codeSamples P st' xs
    (codeOf P nq.1 nq.2 :: rest.1, st'.p :: rest.2.1, rest.2.2)

/-- The coded form of a block and the step index it ends with (R61, R62, R64, R65). Under parameters that are no valid profile, which
only an EMPTY slot delivers, what the arithmetic gives is a free value (log entry 31). -/
def codeBlock (P : Profile) (k0 : Nat) (xs : List Sample) (filled padded : Bool) : CodedBlock × Nat :=
  let p0 := xs.headD 0
  let made : Bool × List Byte × Nat :=
    if Profile.valid P then
      let out := codeSamples P { p := p0.toInt, k := k0, sat := false } xs.tail
      (out.2.2.sat, packCodes P.w out.1, out.2.2.k)
    else
      let out := Config.unprofiledCode P k0 xs
      (out.1, out.2.1.toList, out.2.2.val)
  ({ p0 := p0, k0 := k0, w := P.w,
     cond := { sat := made.1, clip := clipped xs, filled := filled, padded := padded }, code := made.2.1 }, made.2.2)

/-- The samples y[1] onward that codes decode to (R66). -/
def decodeCodes (P : Profile) : CodeState → List Nat → List Int
  | _, [] => []
  | st, c :: cs =>
    let neg := decide (2 ^ (P.w - 1) ≤ c)
    let st' := st.move P neg (c - neg.toNat * 2 ^ (P.w - 1))
    st'.p :: decodeCodes P st' cs

/-- The 256 samples a coded block decodes to (R66). -/
def decodeBlock (P : Profile) (b : CodedBlock) : List Sample :=
  b.p0 :: (decodeCodes P { p := b.p0.toInt, k := b.k0, sat := false } (unpackCodes P.w b.code)).map (BitVec.ofInt 16)

/-- The Coder's reconstruction of a block (R62). -/
def reconstruction (P : Profile) (k0 : Nat) (xs : List Sample) : List Sample :=
  xs.headD 0 :: (codeSamples P { p := (xs.headD 0).toInt, k := k0, sat := false } xs.tail).2.1.map (BitVec.ofInt 16)

end Sys2Proof.Machine
end

