-- ==== Sys2Proof/Machine/Operands.lean ====
section
/-! DEFINITION. The operand forms: key codes (11.2), the payloads of station frames (11.2), the frames found in the bytes of a link
(R153 to R155) and the fields of management requests (11.3). -/

namespace Sys2Proof.Machine

/-! ### Keys (11.2) -/

/-- The fifteen handset keys (11.2). -/
inductive HandsetKey where
  | recordInsert
  | recordOverwrite
  | stop
  | cancelTake
  | rewind
  | forward
  | toStart
  | toEnd
  | review
  | endLetter
  | urgentOn
  | urgentOff
  | recall
  | discardArm
  | discard
deriving DecidableEq, Repr

/-- The code of a handset key (11.2). -/
def HandsetKey.code : HandsetKey → Byte
  | .recordInsert => 0x01#8
  | .recordOverwrite => 0x02#8
  | .stop => 0x03#8
  | .cancelTake => 0x04#8
  | .rewind => 0x05#8
  | .forward => 0x06#8
  | .toStart => 0x07#8
  | .toEnd => 0x08#8
  | .review => 0x09#8
  | .endLetter => 0x0A#8
  | .urgentOn => 0x0B#8
  | .urgentOff => 0x0C#8
  | .recall => 0x0D#8
  | .discardArm => 0x0E#8
  | .discard => 0x0F#8

/-- All the handset keys. -/
def HandsetKey.all : List HandsetKey :=
  [.recordInsert, .recordOverwrite, .stop, .cancelTake, .rewind, .forward, .toStart, .toEnd, .review, .endLetter,
   .urgentOn, .urgentOff, .recall, .discardArm, .discard]

/-- The handset key a code stands for, none for an unknown code (11.2, R182). -/
def keyOfCode (c : Byte) : Option HandsetKey := HandsetKey.all.find? (fun k => k.code == c)

/-- The code of an unsolicited TIMEOUT reply (11.2). -/
def codeTimeout : Byte := 0x80#8

/-- The code of an unsolicited LIMIT reply (11.2). -/
def codeLimit : Byte := 0x81#8

/-- The motion keys and END-LETTER: the keys a FAILED controller leaves their effect (R9, step 3), and those that cause an
implicit stop in RECORDING (R15). -/
def HandsetKey.movesOrEnds : HandsetKey → Bool
  | .rewind | .forward | .toStart | .toEnd | .endLetter => true
  | _ => false

/-! ### Frames received (R153, R154, R182) -/

/-- The kind byte of a received frame's header and payload (R182). -/
def frameKind (body : List Byte) : Byte := body.getD 0 0

/-- The channel byte of a received frame's header and payload (R182). -/
def frameChannel (body : List Byte) : Byte := body.getD 1 0

/-- The payload of a received frame's header and payload (R182). -/
def framePayload (body : List Byte) : List Byte := body.drop 2

/-- What the bytes behind a start pattern come to: more are needed, a good frame with its header and payload and what follows it, or a
bad frame (R154). -/
inductive Judgement where
  | partially
  | good (body rest : List Byte)
  | bad
deriving DecidableEq, Repr

/-- The bytes behind a start pattern, judged (R154): a length above 300 is bad at once; otherwise the 2 header bytes, the payload and
the 2 check bytes are awaited, and the frame is good where the check matches. -/
def judgeFrame : List Byte → Judgement
  | l1 :: l0 :: rest =>
    let n := natOfBytes [l1, l0]
    if 300 < n then .bad
    else if rest.length < n + 4 then .partially
    else if fieldAt rest (n + 2) 2 = (frameCheck (rest.take (n + 2))).toNat then .good (rest.take (n + 2)) (rest.drop (n + 4))
    else .bad
  | _ => .partially

/-- What a receiver finds in the bytes it holds: nothing that is whole, with the bytes to keep; a good frame, with its header and
payload and the bytes behind it; or a bad frame, with the bytes behind its first one. `stray` says that a byte other than an idle byte
was passed over on the way (R155). -/
inductive Found where
  | waits (stray : Bool) (rest : List Byte)
  | good (stray : Bool) (body rest : List Byte)
  | bad (stray : Bool) (rest : List Byte)
deriving DecidableEq, Repr

/-- The first frame in the bytes of a link (R153 to R155). Idle bytes are passed over. With `search`, the start pattern is looked for at
every byte; without, the first byte that is not idle begins a frame, which is bad where it does not begin with the start pattern. -/
def findFrame (search stray : Bool) : List Byte → Found
  | [] => .waits stray []
  | b :: rest =>
    if b = idleByte then findFrame search stray rest
    else if b = startByte ∧ rest = [] then .waits stray [b]
    else if b = startByte ∧ rest.head? = some startSecond then
      match judgeFrame rest.tail with
      | .partially => .waits stray (b :: rest)
      | .good body behind => .good stray body behind
      | .bad => .bad stray rest
    else if search then findFrame search true rest
    else .bad stray rest

/-- The channel that a station frame's byte names, none outside 0..47 (R146). -/
def chanOfByte (b : Byte) : Option Chan := if h : b.toNat < 48 then some ⟨b.toNat, h⟩ else none

/-- The payload of an AUDIO frame (11.2). -/
def audioPayload (seq : Word16) (xs : List Sample) : List Byte := byte2 seq.toNat ++ xs.flatMap sampleBytes

/-- The payload of a KEY frame (11.2). -/
def keyPayload (code : Byte) (count : Nat) : List Byte := code :: byte2 count

/-! ### Management requests (11.3) -/

/-- The payload length of the fields of each request kind, none for an unknown kind (10.3, 11.3, R183). -/
def fieldsLength (kind : Byte) : Option Nat :=
  match kind.toNat with
  | 0x01 => some 0
  | 0x02 => some 1
  | 0x03 => some 10
  | 0x04 => some 1
  | 0x05 => some 146
  | 0x06 => some 1
  | 0x07 => some 4
  | 0x08 => some 2
  | 0x09 => some 1
  | 0x0A => some 4
  | 0x0B => some 0
  | 0x0C => some 0
  | 0x0D => some 0
  | 0x0E => some 1
  | 0x0F => some 1
  | 0x10 => some 1
  | 0x11 => some 1
  | 0x12 => some 4
  | 0x13 => some 1
  | 0x14 => some 0
  | _ => none

/-- The request's kind is known and its payload's length fits its kind (R166, R183). -/
def Request.fits (r : Request) : Bool := fieldsLength r.kind == some r.fields.length

/-- A request from the payload of a MGMT-REQUEST frame: kind, tag, fields (11.3). -/
def requestOfPayload (bs : List Byte) : Request :=
  { kind := bs.getD 0 0, tag := BitVec.ofNat 16 (fieldAt bs 1 2), fields := bs.drop 3 }

/-- A channel number of a request, none above 47. -/
def chanField (bs : List Byte) (i : Nat) : Option Chan :=
  if h : fieldAt bs i 1 < 48 then some ⟨fieldAt bs i 1, h⟩ else none

/-- A slot number of a request, none above 15. -/
def slotField (bs : List Byte) (i : Nat) : Option Slot :=
  if h : fieldAt bs i 1 < 16 then some ⟨fieldAt bs i 1, h⟩ else none

/-- The mode a code stands for (11.3). -/
def modeOfCode : Nat → Option Mode
  | 0 => some .blocked
  | 1 => some .compress
  | 2 => some .bypass
  | _ => none

/-- The class a code stands for (11.3). -/
def classOfCode : Nat → Option Priority
  | 0 => some .routine
  | 1 => some .urgent
  | _ => none

/-- The six settings of a WRITE-CHANNEL, none where one of the checks of R138 fails. Field order and widths are those of R138 and
11.3: mode 1, author ID 3, profile slot 1, class 1, max duration 2, idle minutes 1. -/
def settingsField (bs : List Byte) (i : Nat) : Option Settings :=
  match modeOfCode (fieldAt bs i 1), slotField bs (i + 4), classOfCode (fieldAt bs (i + 5) 1) with
  | some mode, some slot, some cls =>
    let s : Settings := { mode := mode, author := fieldAt bs (i + 1) 3, slot := slot, cls := cls,
                          maxDur := fieldAt bs (i + 6) 2, minutes := fieldAt bs (i + 8) 1 }
    if 1 ≤ s.maxDur ∧ s.minutes ≤ 240 then some s else none
  | _, _, _ => none

/-- `n` 2-byte fields in a row. -/
def words : Nat → List Byte → List Nat
  | 0, _ => []
  | n + 1, bs => fieldAt bs 0 2 :: words n (bs.drop 2)

/-- The profile image that begins at a byte (11.3). -/
def profileField (bs : List Byte) (i : Nat) : Profile :=
  let b := bs.drop i
  { w := fieldAt b 0 1, kInit := fieldAt b 1 1, step := words 64 (b.drop 2),
    adj := ((b.drop 130).take 8).map signedByte,
    tEnter := fieldAt b 138 2, tLeave := fieldAt b 140 2, hang := fieldAt b 142 1, cap := fieldAt b 143 2 }

/-- The notice level a code stands for (11.3). -/
def levelOfCode : Nat → Option NoticeLevel
  | 0 => some .off
  | 1 => some .fatal
  | 2 => some .serious
  | 3 => some .all
  | _ => none

/-- A counters scope (11.3): a channel, PART or ALL. -/
inductive Scope where
  | channel (ch : Chan)
  | part
  | all
deriving DecidableEq, Repr

/-- The scope a code stands for (11.3). -/
def scopeOfCode (n : Nat) : Option Scope :=
  if h : n < 48 then some (.channel ⟨n, h⟩)
  else if n = 0xFE then some .part
  else if n = 0xFF then some .all
  else none

end Sys2Proof.Machine
end

