-- ==== Sys2Proof/Machine/Flags.lean ====
section
/-! DEFINITION. Conditions, saturating counters and the codes of enumerated fields (11.2, 11.3, R178). -/

namespace Sys2Proof.Machine

/-! ### Counters (R178) -/

/-- A 32-bit counter that rises and saturates at 4,294,967,295 (R178). -/
def satAdd (n k : Nat) : Nat := min (n + k) max32

/-- A 32-bit number that advances by 1, and from 4,294,967,295 goes to 1 (R3, R99). -/
def advance32 (n : Nat) : Nat := if n = max32 then 1 else n + 1

/-- A generation that advances: from 0 to 1, otherwise by 1, and from 65,535 to 1 (R53). -/
def advanceGeneration (g : Nat) : Nat := if g = max16 then 1 else g + 1

/-- A take serial that advances, wrapping from 255 to 0 (R4). -/
def advanceSerial (n : Nat) : Nat := (n + 1) % 256

def ChanCounters.addAccepted (k : Nat) (c : ChanCounters) : ChanCounters := { c with accepted := satAdd c.accepted k }
def ChanCounters.addStray (k : Nat) (c : ChanCounters) : ChanCounters := { c with stray := satAdd c.stray k }
def ChanCounters.addConcealed (k : Nat) (c : ChanCounters) : ChanCounters := { c with concealed := satAdd c.concealed k }
def ChanCounters.addResyncs (k : Nat) (c : ChanCounters) : ChanCounters := { c with resyncs := satAdd c.resyncs k }
def ChanCounters.addOverruns (k : Nat) (c : ChanCounters) : ChanCounters := { c with overruns := satAdd c.overruns k }
def ChanCounters.addCoded (k : Nat) (c : ChanCounters) : ChanCounters := { c with coded := satAdd c.coded k }
def ChanCounters.addSilent (k : Nat) (c : ChanCounters) : ChanCounters := { c with silent := satAdd c.silent k }
def ChanCounters.addSat (k : Nat) (c : ChanCounters) : ChanCounters := { c with satBlocks := satAdd c.satBlocks k }
def ChanCounters.addClip (k : Nat) (c : ChanCounters) : ChanCounters := { c with clipBlocks := satAdd c.clipBlocks k }
def ChanCounters.addTaken (k : Nat) (c : ChanCounters) : ChanCounters := { c with keysTaken := satAdd c.keysTaken k }
def ChanCounters.addRefused (k : Nat) (c : ChanCounters) : ChanCounters := { c with keysRefused := satAdd c.keysRefused k }

def PartCounters.addBad (k : Nat) (link : Link) (c : PartCounters) : PartCounters :=
  match link with
  | .station => { c with stationBad := satAdd c.stationBad k }
  | .pool => { c with poolBad := satAdd c.poolBad k }

def PartCounters.addHunts (k : Nat) (link : Link) (c : PartCounters) : PartCounters :=
  match link with
  | .station => { c with stationHunts := satAdd c.stationHunts k }
  | .pool => { c with poolHunts := satAdd c.poolHunts k }

def PartCounters.addKeyOverruns (k : Nat) (c : PartCounters) : PartCounters := { c with keyOverruns := satAdd c.keyOverruns k }
def PartCounters.addReviewDrops (k : Nat) (c : PartCounters) : PartCounters := { c with reviewDrops := satAdd c.reviewDrops k }
def PartCounters.addBadChannel (k : Nat) (c : PartCounters) : PartCounters := { c with badChannel := satAdd c.badChannel k }
def PartCounters.addBypassDrops (k : Nat) (c : PartCounters) : PartCounters := { c with bypassDrops := satAdd c.bypassDrops k }
def PartCounters.addMgmtDrops (k : Nat) (c : PartCounters) : PartCounters := { c with mgmtDrops := satAdd c.mgmtDrops k }
def PartCounters.addDrained (k : Nat) (c : PartCounters) : PartCounters := { c with lettersDrained := satAdd c.lettersDrained k }
def PartCounters.addAbandoned (k : Nat) (c : PartCounters) : PartCounters :=
  { c with lettersAbandoned := satAdd c.lettersAbandoned k }
def PartCounters.addRetired (k : Nat) (c : PartCounters) : PartCounters := { c with locsRetired := satAdd c.locsRetired k }

/-! ### Conditions (R65, 11.2) -/

/-- No condition set. -/
def Conditions.clear : Conditions := { sat := false, clip := false, filled := false, padded := false }

/-- The conditions byte: bit 7 SAT, bit 6 CLIP, bit 5 FILLED, bit 4 PADDED, bits 3..0 zero (11.2). -/
def Conditions.toByte (c : Conditions) : Byte :=
  BitVec.ofNat 8 (128 * c.sat.toNat + 64 * c.clip.toNat + 32 * c.filled.toNat + 16 * c.padded.toNat)

/-! ### Codes (11.2, 11.3) -/

def KeyResult.toCode : KeyResult → Nat
  | .done => 0 | .refused => 1 | .noLetter => 2 | .tooLate => 3 | .full => 4 | .empty => 5 | .disarmed => 6 | .busy => 7
  | .blocked => 8 | .notReady => 9 | .fault => 10

def StopCause.toCode : StopCause → Nat
  | .length => 1 | .memory => 2 | .resource => 3 | .link => 4 | .entry => 5 | .profile => 6 | .failed => 7

def Content.toCode : Content → Nat
  | .speech => 0 | .silence => 1 | .gap => 2 | .damaged => 3

def Status.toCode : Status → Nat
  | .ok => 0 | .badRequest => 1 | .badField => 2 | .notFound => 3 | .inUse => 4 | .wrongState => 5 | .starting => 6

def Phase.toCode : Phase → Nat
  | .opened => 1 | .recording _ => 2 | .finishing _ => 3 | .reviewing => 4 | .queued _ => 5 | .draining _ => 6
  | .suspended _ => 7

def classCode : Priority → Nat
  | .routine => 0 | .urgent => 1

def modeCode : Mode → Nat
  | .blocked => 0 | .compress => 1 | .bypass => 2

def SlotStatus.toCode : SlotStatus → Nat
  | .empty => 0 | .ready => 1 | .damaged => 2

def TakeMode.toCode : TakeMode → Nat
  | .insert => 0 | .overwrite => 1

def FaultKind.toCode : FaultKind → Nat
  | .corrected => 1 | .uncorrected => 2 | .tableParity => 3 | .noResponse => 4

def RecordCause.toCode : RecordCause → Nat
  | .overrun => 1 | .sequence => 2 | .damaged => 3

/-- The cause of a delivered gap, from that of the segment (R105). -/
def GapCause.toRecord : GapCause → RecordCause
  | .overrun => .overrun | .sequence => .sequence

/-- The precedence of a kind (10.4, table of kinds). -/
def FaultKind.precedence : FaultKind → Nat
  | .noResponse => 4 | .uncorrected => 3 | .tableParity => 2 | .corrected => 1

/-- The result of a LIMIT reply to a force-stop of a cause (R19). -/
def StopCause.limitResult : StopCause → KeyResult
  | .length | .memory | .resource => .full
  | .profile | .failed => .fault
  | .entry => .blocked
  | .link => .done

/-- The causes for which what is left in the ring is discarded (R18, R19). -/
def StopCause.discards : StopCause → Bool
  | .length | .memory | .failed => true
  | _ => false

/-- The causes that set close-at-commit (R19). -/
def StopCause.closes : StopCause → Bool
  | .entry | .failed => true
  | _ => false

/-- A result that counts in the keys-refused counter: neither DONE nor EMPTY (R9). -/
def KeyResult.counts : KeyResult → Bool
  | .done | .empty => false
  | _ => true

/-- Whether a level announces a kind (R175). -/
def NoticeLevel.announces : NoticeLevel → FaultKind → Bool
  | .off, _ => false
  | .fatal, k => decide (k = .noResponse)
  | .serious, k => decide (k ≠ .corrected)
  | .all, _ => true

end Sys2Proof.Machine
end

