-- ==== Sys2Proof/Machine/Segments.lean ====
section
/-! DEFINITION. Segment lists: durations and positions (R30, R32, R34), the append of a block outcome (R36), the splice of a take
(R40 to R45) and the conversion of a handle (R47). -/

namespace Sys2Proof.Machine

/-- The duration of a segment in blocks (R30). -/
def Segment.dur : Segment → Nat
  | .speech hs => hs.length
  | .silence d => d
  | .gap _ => 1

/-- The sum of the durations of a list (R32, R35). -/
def listDur : List Segment → Nat
  | [] => 0
  | g :: rest => g.dur + listDur rest

/-- A letter's length: the sum of its segments' durations (R32). -/
def Letter.length (l : Letter) : Nat := listDur l.list

/-- A take's length L: the sum of its list's durations (R35). -/
def Take.len (t : Take) : Nat := listDur t.list

/-- The start of the segment at an index: the sum of the durations before it (R32). -/
def segStart (list : List Segment) (i : Nat) : Nat := listDur (list.take i)

/-- The segment that holds position p, as an index and an offset (R34). -/
def locate : List Segment → Nat → Option (Nat × Nat)
  | [], _ => none
  | g :: rest, p => if p < g.dur then some (0, p) else (locate rest (p - g.dur)).map (fun w => (w.1 + 1, w.2))

/-- The left part of `o` blocks of a segment that is split or trimmed (R43). -/
def Segment.left (o : Nat) : Segment → Segment
  | .speech hs => .speech (hs.take o)
  | .silence _ => .silence o
  | .gap c => .gap c

/-- What remains of a segment after its first `o` blocks (R43). -/
def Segment.right (o : Nat) : Segment → Segment
  | .speech hs => .speech (hs.drop o)
  | .silence d => .silence (d - o)
  | .gap c => .gap c

/-- The first n blocks of a list; a segment that the cut divides keeps its left part (R41, R42, R43). -/
def takeBlocks : Nat → List Segment → List Segment
  | _, [] => []
  | n, g :: rest =>
    if n = 0 then []
    else if g.dur ≤ n then g :: takeBlocks (n - g.dur) rest
    else [g.left n]

/-- What remains of a list after its first n blocks; a segment that the cut divides keeps its right part (R41, R42, R43). -/
def dropBlocks : Nat → List Segment → List Segment
  | _, [] => []
  | n, g :: rest =>
    if n = 0 then g :: rest
    else if g.dur ≤ n then dropBlocks (n - g.dur) rest
    else g.right n :: rest

/-- A seam: where both records that meet are SILENCE they are joined in the earlier one (R45). -/
def joinSeam (left right : List Segment) : List Segment :=
  match left.getLast?, right with
  | some (.silence a), .silence b :: rest => left.dropLast ++ .silence (a + b) :: rest
  | _, _ => left ++ right

/-- The committed list after the splice of a take list at c in its mode: cut, place, merge the left seam and then the right
(R40 to R45). A take list of length 0 changes nothing. -/
def spliceList (mode : TakeMode) (c : Nat) (take list : List Segment) : List Segment :=
  if listDur take = 0 then list
  else
    let rest := match mode with
      | .insert => dropBlocks c list
      | .overwrite => dropBlocks (c + listDur take) list
    joinSeam (joinSeam (takeBlocks c list) take) rest

/-- The block locations that the handles of a list name, in timeline order (R44, R46). -/
def listLocs : List Segment → List Nat
  | [] => []
  | .speech hs :: rest => hs.filterMap (fun h => match h with | .loc n => some n | .placeholder => none) ++ listLocs rest
  | _ :: rest => listLocs rest

/-- The locations of the blocks that an OVERWRITE splice removes, earliest position first; an INSERT removes nothing (R41, R42, R44). -/
def removedLocs (mode : TakeMode) (c : Nat) (take list : List Segment) : List Nat :=
  match mode with
  | .insert => []
  | .overwrite => listLocs (takeBlocks (listDur take) (dropBlocks c list))

/-- The length a letter has after the commit of a take of length L at c (R13, R17, R40). -/
def splicedLength (mode : TakeMode) (length c L : Nat) : Nat :=
  match mode with
  | .insert => length + L
  | .overwrite => max length (c + L)

/-- Whether the append of an outcome draws a new record (R36). -/
def drawsRecord (list : List Segment) (o : BlockOutcome) : Bool :=
  match o, list.getLast? with
  | .coded _, some (.speech hs) => decide (32 ≤ hs.length)
  | .silent, some (.silence _) => false
  | _, _ => true

/-- A take list with an outcome appended (R36). -/
def appendOutcome (list : List Segment) (o : BlockOutcome) : List Segment :=
  match o, list.getLast? with
  | .coded b, some (.speech hs) =>
    if hs.length < 32 then list.dropLast ++ [.speech (hs ++ [.loc b])] else list ++ [.speech [.loc b]]
  | .coded b, _ => list ++ [.speech [.loc b]]
  | .silent, some (.silence d) => list.dropLast ++ [.silence (d + 1)]
  | .silent, _ => list ++ [.silence 1]
  | .gap c, _ => list ++ [.gap c]

/-- The timeline position, in a list whose first segment starts at `start`, of the handle that names a location (R47). -/
def handlePos (b : Nat) : Nat → List Segment → Option Nat
  | _, [] => none
  | start, g :: rest =>
    match g with
    | .speech hs =>
      if hs.contains (.loc b) then some (start + hs.idxOf (.loc b)) else handlePos b (start + g.dur) rest
    | _ => handlePos b (start + g.dur) rest

/-- A list with the handle that names a location replaced, in place, by a damaged placeholder (R47). -/
def convertHandle (b : Nat) (list : List Segment) : List Segment :=
  list.map (fun g => match g with
    | .speech hs => .speech (hs.map (fun h => if h = .loc b then .placeholder else h))
    | g => g)

/-- The number of damaged placeholders in a list (R168). -/
def placeholders (list : List Segment) : Nat :=
  (list.map (fun g => match g with | .speech hs => hs.count .placeholder | _ => 0)).sum

/-- The played duration of a SILENCE of true duration D under a cap (R68). -/
def playedDur (cap d : Nat) : Nat := if cap = 0 then d else min d cap

end Sys2Proof.Machine
end

