-- ==== Sys2Proof/Machine/Ops.lean ====
section
/-! DEFINITION. The named operations over the tables, the lists and the block memory, which the meanings are written with. -/

namespace Sys2Proof.Machine

/-! ### One entry of a table -/

/-- A table with the entry at an index changed. -/
def upd {α : Type} {n : Nat} (v : Vector α n) (i : Fin n) (f : α → α) : Vector α n := v.set i.val (f v[i.val]) i.isLt

/-- The first channel after a pointer, in ascending cyclic order over 0..47, that has a property (R80, R161). -/
def cyclicFrom (ptr : Chan) (p : Chan → Bool) : Option Chan :=
  ((List.range 48).map (fun k => Fin.ofNat 48 (ptr.val + 1 + k))).find? p

/-- Change the counters of a channel (R178). -/
def State.count (s : State) (ch : Chan) (f : ChanCounters → ChanCounters) : State :=
  { s with mgmt := { s.mgmt with chanCounters := upd s.mgmt.chanCounters ch f } }

/-- Change the part-wide counters (R178). -/
def State.countPart (s : State) (f : PartCounters → PartCounters) : State :=
  { s with mgmt := { s.mgmt with part := f s.mgmt.part } }

/-- Change the dictation context of a channel (R4). -/
def State.modCtx (s : State) (ch : Chan) (f : Context → Context) : State := { s with ctxs := upd s.ctxs ch f }

/-- Change a letter record that is not FREE. -/
def State.modLetter (s : State) (i : LetterIx) (f : Letter → Letter) : State :=
  { s with letters := upd s.letters i (fun l => l.map f) }

/-- Set a letter record; none makes it FREE (R1). -/
def State.setLetter (s : State) (i : LetterIx) (l : Option Letter) : State := { s with letters := upd s.letters i (fun _ => l) }

/-- Change the state of a letter. -/
def State.setPhase (s : State) (i : LetterIx) (p : Phase) : State := s.modLetter i (fun l => { l with phase := p })

/-- Change a channel's capture ring (R70). -/
def State.modCapture (s : State) (ch : Chan) (f : Capture → Capture) : State := { s with capture := upd s.capture ch f }

/-- Change the Coder's state of a channel (R79). -/
def State.modCoder (s : State) (ch : Chan) (f : CoderChan → CoderChan) : State :=
  { s with coder := { s.coder with chans := upd s.coder.chans ch f } }

/-- Change a channel's review context (R87). -/
def State.modPlayer (s : State) (ch : Chan) (f : PlayerChan → PlayerChan) : State := { s with player := upd s.player ch f }

/-- Change a PLAYING review context. -/
def State.modReview (s : State) (ch : Chan) (f : Review → Review) : State :=
  s.modPlayer ch (fun p => { p with review := p.review.map f })

/-- Change a channel entry (R136). -/
def State.modEntry (s : State) (ch : Chan) (f : ChannelEntry → ChannelEntry) : State := { s with table := upd s.table ch f }

/-- Change a profile slot (R50). -/
def State.modSlot (s : State) (k : Slot) (f : ProfileSlot → ProfileSlot) : State := { s with profiles := upd s.profiles k f }

/-- Change the Drain Engine's state (R101). -/
def State.modDrain (s : State) (f : Drain → Drain) : State := { s with drain := f s.drain }

/-- Change the Block Memory Controller's state (R119). -/
def State.modMem (s : State) (f : BlockMemory → BlockMemory) : State := { s with mem := f s.mem }

/-- Change the Management Handler's state (R164). -/
def State.modMgmt (s : State) (f : Management → Management) : State := { s with mgmt := f s.mgmt }

/-- Change what passes between blocks (R180). -/
def State.modWires (s : State) (f : Wires → Wires) : State := { s with wires := f s.wires }

/-- Change the Station Port's state (R159). -/
def State.modStation (s : State) (f : StationPort → StationPort) : State := { s with station := f s.station }

/-- Change the Pool Port's state (R162). -/
def State.modPool (s : State) (f : PoolPort → PoolPort) : State := { s with pool := f s.pool }

/-! ### Errors that arose in the tables (R55, R137) -/

/-- One upset, of those an error can leave: the stored copy holds other contents and its check bits no longer agree with them. -/
def State.upset (s : State) (u : Upset) : State :=
  if u.wellFormed = false then s
  else match u with
  | .inForce ch c => s.modEntry ch (fun e => { e with inForce := { settings := c, parityOk := false } })
  | .pendingCopy ch c =>
    s.modEntry ch (fun e => { e with pendingCopy := e.pendingCopy.map (fun _ => { settings := c, parityOk := false }) })
  | .profile k c => s.modSlot k (fun p => { p with contents := c, parityOk := false })

/-- The upsets of a command, in order. -/
def State.upsets (s : State) (us : List Upset) : State := us.foldl State.upset s

/-! ### Lists of locations in runs (R124) -/

/-- The number of locations of a list held as runs. -/
def runsCount (rs : List (Nat × Nat)) : Nat := (rs.map (fun r => r.2)).sum

/-- Whether a location stands on a list held as runs. -/
def runsMem (n : Nat) (rs : List (Nat × Nat)) : Bool := rs.any (fun r => decide (r.1 ≤ n) && decide (n < r.1 + r.2))

/-- A location joins at the tail. -/
def runsPush : List (Nat × Nat) → Nat → List (Nat × Nat)
  | [], n => [(n, 1)]
  | [(a, k)], n => if a + k = n then [(a, k + 1)] else [(a, k), (n, 1)]
  | r :: rest, n => r :: runsPush rest n

/-- The location at the head, and the list without it. -/
def runsPop : List (Nat × Nat) → Option (Nat × List (Nat × Nat))
  | [] => none
  | (a, k) :: rest => if k ≤ 1 then some (a, rest) else some (a, (a + 1, k - 1) :: rest)

/-- The locations of a list held as runs, in list order. -/
def runsList (rs : List (Nat × Nat)) : List Nat := rs.flatMap (fun r => List.range' r.1 r.2)

/-! ### The contents of block memory (R119, R122, R127) -/

/-- An error stands before another in ascending order of group and bit. -/
def BitError.before (a b : BitError) : Bool :=
  decide (a.group.val < b.group.val) || (decide (a.group = b.group) && decide (a.bit < b.bit))

/-- An error takes its place among those a location holds; one it holds already changes nothing (R127). -/
def addError (e : BitError) : List BitError → List BitError
  | [] => [e]
  | x :: rest => if x = e then x :: rest else if BitError.before e x then e :: x :: rest else x :: addError e rest

/-- A location's contents with the errors that have arisen in them (R127). -/
def Stored.withErrors (x : Stored) (found : List BitError) : Stored := { x with errs := found.foldl (fun es e => addError e es) x.errs }

/-- Errors in ascending order, each once. -/
def errorsRise : List BitError → Bool
  | a :: b :: rest => BitError.before a b && errorsRise (b :: rest)
  | _ => true

/-- The contents of block memory: locations strictly rising, and no entry equal to what an unlisted location reads as. -/
abbrev Memory := List (Nat × Stored)

/-- What an unlisted location reads as: what an INIT write stores, an all-zero header and code field without error (R122). -/
def zeroStored : Stored :=
  { block := { p0 := 0, k0 := 0, w := 0, cond := Conditions.clear, code := List.replicate 128 0 }, errs := [] }

/-- What a location stores. -/
def Memory.read : Memory → Nat → Stored
  | [], _ => zeroStored
  | (a, x) :: rest, n => if a = n then x else Memory.read rest n

/-- A location's contents replaced whole. -/
def Memory.write : Memory → Nat → Stored → Memory
  | [], n, x => if x = zeroStored then [] else [(n, x)]
  | (a, y) :: rest, n, x =>
    if n < a then (if x = zeroStored then (a, y) :: rest else (n, x) :: (a, y) :: rest)
    else if n = a then (if x = zeroStored then rest else (n, x) :: rest)
    else (a, y) :: Memory.write rest n x

/-- The canonical form, above a bound: locations strictly rising, no entry as an unlisted location reads, and the errors of each in
ascending order. -/
def Memory.wfFrom : Nat → Memory → Bool
  | _, [] => true
  | lo, (a, x) :: rest => decide (lo ≤ a) && decide (x ≠ zeroStored) && errorsRise x.errs && Memory.wfFrom (a + 1) rest

/-- The canonical form of the contents of block memory. -/
def Memory.wf (m : Memory) : Bool := Memory.wfFrom 0 m

/-! ### Locations and their bookkeeping (R119, R125, R126) -/

/-- The status of a location, with the writing flag of an ALLOCATED one (R119). -/
inductive LocStatus where
  | unwritten
  | free
  | allocated (writing : Bool)
  | releasing
  | retired
deriving DecidableEq, Repr

/-- The bookkeeping entry of a location (R119, R120). -/
def BlockMemory.status (m : BlockMemory) (n : Nat) : LocStatus :=
  if m.retired.contains n then .retired
  else match m.held.find? (fun h => h.loc == n) with
    | some h => if h.releasing then .releasing else .allocated h.writing
    | none => if runsMem n m.free then .free else .unwritten

/-- A claim that reads (R130). -/
def Claim.reads : Claim → Bool
  | .playerRead _ _ _ | .drainRead _ | .patrolRead => true
  | _ => false

/-- The reads in progress of a location, counted from the request (R119, R130). -/
def BlockMemory.readsOf (m : BlockMemory) (n : Nat) : Nat :=
  ((m.granted.toList ++ m.waiting).filter (fun a => a.claim.reads && a.loc == n)).length

/-- A request joins those that wait at the arbiter (R130); a FAILED controller makes no access, and the request is left unanswered
(R121, R132; log entry 7). -/
def State.request (s : State) (a : Access) : State :=
  if s.mem.ctrl = .failed then s else s.modMem (fun m => { m with waiting := m.waiting ++ [a] })

/-- A location is placed: on the retired list if it is weak, else at the tail of the free list (R125, R126). -/
def State.placeLoc (s : State) (n : Nat) : State :=
  let held := s.mem.held.filter (fun h => h.loc != n)
  if s.mem.weak.contains n then
    (s.modMem (fun m => { m with held := held, retired := m.retired ++ [n] })).countPart (PartCounters.addRetired 1)
  else s.modMem (fun m => { m with held := held, free := runsPush m.free n })

/-- A location is handed back to the controller: placed, or held as RELEASING while a read of it is in progress (R125). -/
def State.handBack (s : State) (n : Nat) : State :=
  match s.mem.status n with
  | .allocated _ =>
    if s.mem.readsOf n = 0 then s.placeLoc n
    else s.modMem (fun m => { m with held := m.held.filter (fun h => h.loc != n) ++
                                              [{ loc := n, releasing := true, writing := false }] })
  | _ => s

/-- Locations are handed back one at a time, in order (R125). -/
def State.handBackAll (s : State) (ns : List Nat) : State := ns.foldl State.handBack s

/-- A RELEASING location whose last read has completed is placed (R125). -/
def State.settle (s : State) (n : Nat) : State :=
  if s.mem.status n = .releasing ∧ s.mem.readsOf n = 0 then s.placeLoc n else s

/-- A location is marked weak (R128, R129). -/
def State.markWeak (s : State) (n : Nat) : State :=
  s.modMem (fun m => { m with weak := if m.weak.contains n then m.weak else m.weak ++ [n] })

/-! ### Detections (R173 to R175) -/

/-- A detection is passed to the Fault Record (R173). -/
def State.detect (s : State) (c : FaultContext) : State := s.modWires (fun w => { w with detections := w.detections ++ [c] })

/-- The context of a detection that names a block location. -/
def locationContext (kind : FaultKind) (n : Nat) (ctx : Option ReadContext) : FaultContext :=
  { kind := kind, place := .location n, number := ctx.map (fun c => c.number), chan := ctx.map (fun c => c.chan),
    pos := ctx.map (fun c => c.pos) }

/-- The tally of a kind. -/
def FaultRecord.tally (r : FaultRecord) : FaultKind → FaultTally
  | .corrected => r.corrected
  | .uncorrected => r.uncorrected
  | .tableParity => r.tableParity
  | .noResponse => r.noResponse

/-- The Fault Record with the tally of a kind set. -/
def FaultRecord.setTally (r : FaultRecord) (k : FaultKind) (t : FaultTally) : FaultRecord :=
  match k with
  | .corrected => { r with corrected := t }
  | .uncorrected => { r with uncorrected := t }
  | .tableParity => { r with tableParity := t }
  | .noResponse => { r with noResponse := t }

/-- A frame is handed to the control queue, where it joins if the queue holds fewer than 8 (R162, R166). -/
def PoolPort.controlRoom (p : PoolPort) : Bool := decide (p.control.length < 8)

/-- A FAULT-NOTICE as made joins the control queue, or the owed notices where the queue is full (R175). -/
def State.makeNotice (s : State) (n : Notice) : State :=
  if s.pool.controlRoom then s.modPool (fun p => { p with control := p.control ++ [.notice n] })
  else s.modMgmt (fun m => { m with owed := m.owed ++ [n] })

/-- The context slot after a detection: taken when empty or when the detection's precedence is at least that held (R174). -/
def nextContext (slot : Option FaultContext) (c : FaultContext) : Option FaultContext :=
  match slot with
  | none => some c
  | some held => if held.kind.precedence ≤ c.kind.precedence then some c else some held

/-- The Fault Record after a detection (R174): the count rises, the seen flag is set, the context slot takes the context or not. -/
def FaultRecord.record (r : FaultRecord) (c : FaultContext) : FaultRecord :=
  let r' := r.setTally c.kind { seen := true, count := satAdd (r.tally c.kind).count 1 }
  { r' with context := nextContext r.context c }

/-- The Fault Record takes a detection, and a notice is made where it sets the seen flag of an announced kind (R174, R175). -/
def State.recordDetection (s : State) (c : FaultContext) : State :=
  let s1 := s.modMgmt (fun m => { m with faults := m.faults.record c })
  if !(s.mgmt.faults.tally c.kind).seen && s.mgmt.level.announces c.kind then
    s1.makeNotice { kind := c.kind, count := (s1.mgmt.faults.tally c.kind).count, context := c }
  else s1

/-! ### Completion of a read (R127 to R129) -/

/-- The worse of two findings. -/
def ReadResult.worse : ReadResult → ReadResult → ReadResult
  | .uncorrectable, _ => .uncorrectable
  | _, .uncorrectable => .uncorrectable
  | .corrected, _ => .corrected
  | _, .corrected => .corrected
  | .good, .good => .good

/-- A conversion request for a location, or its answer, is outstanding (R129). -/
def Wires.converting (w : Wires) (n : Nat) : Bool :=
  w.convRequests.contains n || w.convAnswers.any (fun a => a.1 == n)

/-- The bits of a check group that are in error (R127). -/
def groupErrors (errs : List BitError) (g : Fin 17) : List Nat := (errs.filter (fun e => decide (e.group = g))).map BitError.bit

/-- What the code of a check group makes of its bits in error: it corrects one and detects two (R127); what it makes of more is a free
value (log entry 11). -/
def groupResult (bits : List Nat) : ReadResult :=
  match bits with
  | [] => .good
  | [_] => .corrected
  | [_, _] => .uncorrectable
  | _ => Config.manyBitErrors bits

/-- The result of a read of a location: the worst over its check groups (R127). -/
def Stored.result (x : Stored) : ReadResult :=
  (List.finRange 17).foldl (fun r g => ReadResult.worse r (groupResult (groupErrors x.errs g))) .good

/-- The result of a read of a location that holds its own errors and those that have arisen since (R127). -/
def State.readResult (s : State) (n : Nat) (found : List BitError) : ReadResult :=
  ((Memory.read s.mem.cells n).withErrors found).result

/-- The memory becomes idle again, and the stored contents keep the errors the read met: a correction is not made in the location (R127). -/
def State.endRead (s : State) (n : Nat) (found : List BitError) : State :=
  s.modMem (fun m => { m with granted := none, cells := Memory.write m.cells n ((Memory.read m.cells n).withErrors found) })

/-- What the controller does with the result of a completed read of a location (R128, R129); `ctx` is the context the reader
passed with its request, none for the patrol. -/
def State.afterRead (s : State) (n : Nat) (ctx : Option ReadContext) (r : ReadResult) : State :=
  match r with
  | .good => s.settle n
  | .corrected => ((s.markWeak n).detect (locationContext .corrected n ctx)).settle n
  | .uncorrectable =>
    let s1 := s.markWeak n
    if s1.wires.converting n then s1.settle n
    else match s1.mem.status n with
      | .allocated _ => s1.modWires (fun w => { w with convRequests := w.convRequests ++ [n] })
      | .releasing => (s1.detect (locationContext .uncorrected n none)).settle n
      | _ => s1

/-- A granted read completes at the controller (R127 to R129). -/
def State.completeRead (s : State) (n : Nat) (ctx : Option ReadContext) (found : List BitError) : State :=
  (s.endRead n found).afterRead n ctx (s.readResult n found)

/-! ### Key replies (R8, R9, R159) -/

/-- A reply joins its channel's queue at the tail (R159). -/
def State.pushReply (s : State) (ch : Chan) (r : KeyReply) : State :=
  s.modStation (fun p => { p with replies := upd p.replies ch (fun q => q ++ [r]) })

/-- A key frame of the channel is in flight no more (R159). -/
def State.landKey (s : State) (ch : Chan) : State :=
  s.modStation (fun p => { p with inFlight := upd p.inFlight ch (fun n => n - 1) })

/-- The values a reply gives of a letter: cursor, length and number (R8). -/
structure LetterView where
  cursor : Nat
  length : Nat
  number : Nat
deriving DecidableEq, Repr

/-- The view where no letter is concerned: letter number 0 (R8). Its cursor and length, which R8 and 11.2 leave open, are 0 (DESIGN CHOICE,
unsafe: log entry 40). -/
def LetterView.none : LetterView := { cursor := 0, length := 0, number := 0 }

/-- The view of a letter (R8): while a take is in progress its cursor and length are the committed values. -/
def Letter.view (l : Letter) : LetterView := { cursor := l.cursor, length := l.length, number := l.number }

/-- The view of a letter that has been freed: its number with cursor and length 0 (R8). -/
def LetterView.freed (number : Nat) : LetterView := { cursor := 0, length := 0, number := number }

/-- The one reply to a key that the Letter Controller took (R8): it joins the queue, the key is in flight no more (R159), and a
result that is neither DONE nor EMPTY counts as a refused key (R9). -/
def State.answer (s : State) (ch : Chan) (code : Byte) (result : KeyResult) (v : LetterView) : State :=
  let s1 := s.pushReply ch { code := code, result := result, cause := Option.none, cursor := v.cursor, length := v.length, number := v.number }
  let s2 := s1.landKey ch
  if result.counts then s2.count ch (ChanCounters.addRefused 1) else s2

/-- A reply the device sends unasked (R8). -/
def State.tell (s : State) (ch : Chan) (code : Byte) (result : KeyResult) (cause : Option StopCause) (v : LetterView) : State :=
  s.pushReply ch { code := code, result := result, cause := cause, cursor := v.cursor, length := v.length, number := v.number }

/-! ### Letters -/

/-- A channel's current letter (R4). -/
def State.currentLetter (s : State) (ch : Chan) : Option (LetterIx × Letter) :=
  match s.ctxs[ch].current with
  | none => none
  | some i => s.letters[i].map (fun l => (i, l))

/-- The view of a channel's current letter, or of none (R8). -/
def State.currentView (s : State) (ch : Chan) : LetterView :=
  match s.currentLetter ch with
  | none => LetterView.none
  | some il => il.2.view

/-- The letter is taking or ending a take (R38). -/
def Phase.take? : Phase → Option Take
  | .recording t | .finishing t => some t
  | _ => none

/-- The queue ticket of a letter that has one (R2). -/
def Phase.ticket? : Phase → Option Nat
  | .queued t | .draining t | .suspended t => some t
  | _ => none

/-- The segment reserve: the number of letters in RECORDING or FINISHING (R38). -/
def State.reserve (s : State) : Nat :=
  (s.letters.toList.filter (fun l => match l with | some l => l.phase.take?.isSome | none => false)).length

/-- The letters that are not FREE, with their record indices in ascending order. -/
def State.heldLetters (s : State) : List (LetterIx × Letter) :=
  (List.finRange 96).filterMap (fun i => s.letters[i].map (fun l => (i, l)))

/-- The numbers held by letters that are not FREE (R3). -/
def State.numbersHeld (s : State) : List Nat := s.heldLetters.map (fun il => il.2.number)

/-- The first value from `n` on, advancing, that is not in use; `fuel` bounds the search (R3, R99). -/
def freshFrom (used : List Nat) : Nat → Nat → Nat
  | 0, n => n
  | fuel + 1, n => if used.contains n then freshFrom used fuel (advance32 n) else n

/-- The lowest-numbered FREE record (R10). -/
def State.freeRecord (s : State) : Option LetterIx := (List.finRange 96).find? (fun i => s.letters[i].isNone)

/-- The letter that carries a number, which is not 0 (R114, R168). -/
def State.findLetter (s : State) (number : Nat) : Option (LetterIx × Letter) :=
  if number = 0 then none else s.heldLetters.find? (fun il => il.2.number == number)

/-! ### Requests between the Letter Controller and Capture (R71) -/

/-- The Letter Controller sends a request to a channel's capture ring (R71). -/
def State.askCapture (s : State) (ch : Chan) (r : CaptureRequest) : State :=
  s.modWires (fun w => { w with captureRequests := upd w.captureRequests ch (fun q => q ++ [r]) })

/-- The Coder reports to the Letter Controller (R13, R82, R85). -/
def State.report (s : State) (ch : Chan) (r : CoderReport) : State :=
  s.modWires (fun w => { w with reports := upd w.reports ch (fun q => q ++ [r]) })

/-! ### Profile reads (R55) -/

/-- A read of a profile slot by the Coder or the Player: the slot and the parameters delivered, none where the slot is DAMAGED or
its parity is wrong. Of an EMPTY slot, which the rules let only a cancelled take's block be served from, the all-zero contents are
delivered (DEDUCED from R50 and R53, log entry 31). A wrong parity makes the slot DAMAGED, a TABLE_PARITY detection
that names the letter and the channel given, and the notice to the Letter Controller: also where the slot is EMPTY, as R55 says of every
slot that is read, though R52's table lets EMPTY be left by a WRITE-PROFILE alone (DEDUCED, log entry 31). -/
def State.readSlot (s : State) (k : Slot) (number : Option Nat) (ch : Chan) (pos : Option Nat) : State × Option Profile :=
  if s.profiles[k].status = .damaged then (s, none)
  else if s.profiles[k].parityOk then (s, some s.profiles[k].contents)
  else
    let s1 := s.modSlot k (fun p => { p with status := .damaged })
    let s2 := s1.detect { kind := .tableParity, place := .profileSlot k, number := number, chan := some ch, pos := pos }
    (s2.modWires (fun w => { w with takeStops := w.takeStops ++ [.profile k], reviewStops := w.reviewStops ++ [.profile k] }), none)

/-! ### The pool link and the drain (R102, R113) -/

/-- The pool link is paused for the Drain Engine (R113, R158). -/
def State.paused (s : State) : Bool := decide (s.pool.flow = .pause) || !s.pool.rx.sync

/-- HOLD is clear, the pool link is not paused and the controller is READY: what a drain start, a switch, an abort and a record all
need (R102, R103, R109, R115). -/
def State.drainMayAct (s : State) : Bool := !s.drain.hold && !s.paused && decide (s.mem.ctrl = .ready)

/-- The QUEUED letters of a class in their issue order (R98). -/
def State.classOf (s : State) (c : Priority) : List LetterIx :=
  s.drain.issue.filter (fun i => match s.letters[i] with
    | some l => decide (l.cls = c) && (match l.phase with | .queued _ => true | _ => false)
    | none => false)

end Sys2Proof.Machine
end

