-- ==== Sys2Proof/Machine/CaptureOps.lean ====
section
/-! DEFINITION. The capture ring: entering an audio frame (R72 to R76), ending capture (R77, R78) and the end-of-take report (R85). -/

namespace Sys2Proof.Machine

/-- The samples an entry uses of the ring's room (R70). -/
def RingEntry.room : RingEntry → Nat
  | .block xs _ _ => xs.length
  | .gap _ _ => 0

/-- The samples a ring holds (R70). -/
def ringRoom (ring : List RingEntry) : Nat := (ring.map RingEntry.room).sum

/-- An entry is a gap entry. -/
def RingEntry.isGap : RingEntry → Bool
  | .gap _ _ => true
  | .block _ _ _ => false

/-- The gap entries of a ring (R70). -/
def ringGaps (ring : List RingEntry) : Nat := (ring.filter RingEntry.isGap).length

/-- An entry the Coder can take: a whole sample block or a gap entry (R80). -/
def RingEntry.serviceable : RingEntry → Bool
  | .block xs _ _ => decide (blockSamples ≤ xs.length)
  | .gap _ _ => true

/-- The 64 samples of a frame join the partial block or begin a new one (R72); zeros of a concealment set its FILLED flag (R73). -/
def append64 (filled : Bool) (xs : List Sample) : List RingEntry → List RingEntry
  | [] => [.block xs filled false]
  | [.block ys f p] =>
    if ys.length < blockSamples then [.block (ys ++ xs) (f || filled) p] else [.block ys f p, .block xs filled false]
  | e :: rest => e :: append64 filled xs rest

/-- The zero samples of `n` missing frames, then the frame's own samples (R73). -/
def appendConcealed (n : Nat) (xs : List Sample) (ring : List RingEntry) : List RingEntry :=
  append64 false xs ((List.replicate n (List.replicate frameSamples (0 : Sample))).foldl (fun r z => append64 true z r) ring)

/-- The oldest whole sample block is dropped; an OVERRUN gap entry takes its place, or the OVERRUN entry just before it counts one
more (R75). None where there is no whole block. -/
def dropOldest : List RingEntry → Option (List RingEntry)
  | [] => none
  | .block xs _ _ :: rest => if blockSamples ≤ xs.length then some (.gap .overrun 1 :: rest) else none
  | .gap c n :: rest =>
    match rest with
    | .block xs _ _ :: rest' =>
      if blockSamples ≤ xs.length then
        if c = .overrun ∧ n < max16 then some (.gap c (n + 1) :: rest') else some (.gap c n :: .gap .overrun 1 :: rest')
      else none
    | _ => (dropOldest rest).map (fun r => .gap c n :: r)

/-- Room is made: whole blocks are dropped, oldest first, while the free room is less than `need` (R75); also how many were. -/
def makeRoom (need : Nat) : Nat → List RingEntry → List RingEntry × Nat
  | 0, ring => (ring, 0)
  | fuel + 1, ring =>
    if ringRoom ring + need ≤ 1024 then (ring, 0)
    else match dropOldest ring with
      | none => (ring, 0)
      | some ring' => ((makeRoom need fuel ring').1, (makeRoom need fuel ring').2 + 1)

/-- A resync removes the partial block and places a SEQUENCE gap entry, or adds to the newest entry where that is a SEQUENCE
entry with a count below 65,535 (R74). -/
def resyncRing : List RingEntry → List RingEntry
  | [] => [.gap .sequence 1]
  | [.block xs f p] => if xs.length < blockSamples then [.gap .sequence 1] else [.block xs f p, .gap .sequence 1]
  | [.gap c n] => if c = .sequence ∧ n < max16 then [.gap c (n + 1)] else [.gap c n, .gap .sequence 1]
  | [e, .block xs f p] =>
    if xs.length < blockSamples then
      match e with
      | .gap c n => if c = .sequence ∧ n < max16 then [.gap c (n + 1)] else [.gap c n, .gap .sequence 1]
      | .block ys g q => [.block ys g q, .gap .sequence 1]
    else [e, .block xs f p, .gap .sequence 1]
  | e :: rest => e :: resyncRing rest

/-- How a frame is taken by its skip (R72). -/
inductive Entering where
  | inLine
  | concealed (skip : Nat)
  | resync
deriving DecidableEq, Repr

/-- The treatment of a frame by the number expected and its own (R72). -/
def enteringOf (expected : Option Word16) (seq : Word16) : Entering :=
  match expected with
  | none => .inLine
  | some e =>
    let skip := (seq - e).toNat
    if skip = 0 then .inLine else if skip ≤ 8 then .concealed skip else .resync

/-- The ring after a frame, worked out whole, and the blocks its overrun dropped (R72 to R75). -/
def ringAfter (how : Entering) (xs : List Sample) (ring : List RingEntry) : List RingEntry × Nat :=
  match how with
  | .inLine =>
    let r := makeRoom frameSamples 16 ring
    (append64 false xs r.1, r.2)
  | .concealed k =>
    let r := makeRoom ((k + 1) * frameSamples) 16 ring
    (appendConcealed k xs r.1, r.2)
  | .resync =>
    let r := makeRoom frameSamples 16 (resyncRing ring)
    (r.1 ++ [.block xs false false], r.2)

/-- An audio frame reaches a channel's capture ring (R72). It is stray where the channel is not CAPTURING, refused whole where it
would need a ninth gap entry (R76), and entered otherwise. -/
def State.captureFrame (s : State) (ch : Chan) (seq : Word16) (xs : List Sample) : State :=
  let c := s.capture[ch]
  if c.state ≠ .capturing then s.count ch (ChanCounters.addStray 1)
  else
    let how := enteringOf c.expected seq
    let r := ringAfter how xs c.ring
    if 8 < ringGaps r.1 then s.count ch (ChanCounters.addStray 1)
    else
      let s1 := s.modCapture ch (fun c => { c with ring := r.1, expected := some (seq + 1) })
      let s2 := (s1.count ch (ChanCounters.addAccepted 1)).count ch (ChanCounters.addOverruns r.2)
      match how with
      | .inLine => s2
      | .concealed k => s2.count ch (ChanCounters.addConcealed k)
      | .resync => s2.count ch (ChanCounters.addResyncs 1)

/-- The partial block is padded with zeros to 256 samples and flagged PADDED (R77). -/
def padRing : List RingEntry → List RingEntry
  | [] => []
  | [.block xs f p] =>
    if xs.length < blockSamples then [.block (xs ++ List.replicate (blockSamples - xs.length) 0) f true] else [.block xs f p]
  | e :: rest => e :: padRing rest

/-- What an emptying with discard counts: one for each 64 samples or part of 64 in each sample block (R78). -/
def strayOf (ring : List RingEntry) : Nat := (ring.map (fun e => (e.room + 63) / 64)).sum

/-- A write in progress belongs to the channel with its take serial (R85). -/
def State.writingFor (s : State) (ch : Chan) : Bool :=
  match s.coder.write with
  | some w => decide (w.chan = ch) && decide (w.serial = s.coder.chans[ch].serial)
  | none => false

/-- The end-of-take report is sent once the channel is FINISHING, its ring is empty and no write in progress belongs to its take;
the capture state becomes IDLE (R85). -/
def State.endOfTakeCheck (s : State) (ch : Chan) : State :=
  if s.capture[ch].state = .finishing ∧ s.capture[ch].ring = [] ∧ s.writingFor ch = false then
    (s.modCapture ch (fun c => { c with state := .idle })).report ch (.endOfTake s.coder.chans[ch].serial)
  else s

/-- Capture takes a take-finishing request: a CAPTURING channel becomes FINISHING and its partial block is padded; any other
state is unchanged (R71, R77). -/
def State.finishCapture (s : State) (ch : Chan) : State :=
  if s.capture[ch].state = .capturing then
    (s.modCapture ch (fun c => { c with state := .finishing, ring := padRing c.ring })).endOfTakeCheck ch
  else s

/-- Capture takes a take-finishing request with discard: the state becomes FINISHING, and the ring is emptied and counted (R71, R78). -/
def State.discardCapture (s : State) (ch : Chan) : State :=
  if s.capture[ch].state = .idle then s
  else
    ((s.count ch (ChanCounters.addStray (strayOf s.capture[ch].ring))).modCapture ch
      (fun c => { c with state := .finishing, ring := [] })).endOfTakeCheck ch

/-- Capture takes a cancel: the state becomes IDLE and the ring is emptied without counting (R71, R78). -/
def State.cancelCapture (s : State) (ch : Chan) : State :=
  if s.capture[ch].state = .capturing then s.modCapture ch (fun c => { c with state := .idle, ring := [] }) else s

/-- Capture takes one request (R71). -/
def State.takeCaptureRequest (s : State) (ch : Chan) : CaptureRequest → State
  | .finishing => s.finishCapture ch
  | .finishingDiscard => s.discardCapture ch
  | .cancelled => s.cancelCapture ch

/-- The requests of the channel that Capture has not taken are taken, in order: a take start of the channel comes after every
request that was sent before it (R71; log entry 6). -/
def State.flushCapture (s : State) (ch : Chan) : State :=
  let rs := s.wires.captureRequests[ch]
  rs.foldl (fun s r => s.takeCaptureRequest ch r) (s.modWires (fun w => { w with captureRequests := upd w.captureRequests ch (fun _ => []) }))

end Sys2Proof.Machine
end

