-- ==== Sys2Proof/Machine/DrainOps.lean ====
section
/-! DEFINITION. The Drain Engine's shared operations: freeing a letter (R26), starting a delivery (R103), choosing the next (R108, R110), the
switch (R109), a pending abort (R115), and what the engine does in the events that let it act (R102, R103, R112, R113). -/

namespace Sys2Proof.Machine

/-! ### Freeing a letter (R26) -/

/-- The segment records a letter holds: those of its committed list, and of its take's list while it has one (R31). -/
def Letter.records (l : Letter) : Nat := l.list.length + (match l.phase.take? with | some t => t.list.length | none => 0)

/-- A letter is freed: its locations are handed back in timeline order, its segment records and its profile reference return, and
its record becomes FREE (R26, R46). -/
def State.freeLetter (s : State) (i : LetterIx) : State :=
  match s.letters[i] with
  | none => s
  | some l =>
    let s1 := s.handBackAll (listLocs l.list)
    let s2 := { s1 with freeSegs := s1.freeSegs + l.records }
    (s2.modSlot l.slot (fun p => { p with refs := p.refs - 1 })).setLetter i none

/-- A letter leaves the issue list, its ticket dropped with its state (R98, R99). -/
def State.leaveIssue (s : State) (i : LetterIx) : State := s.modDrain (fun d => { d with issue := d.issue.erase i })

/-! ### Starting a delivery (R103) -/

/-- The head of URGENT, or of ROUTINE where URGENT is empty (R103). -/
def State.nextHead (s : State) : Option LetterIx :=
  match s.classOf .urgent with
  | i :: _ => some i
  | [] => (s.classOf .routine).head?

/-- A letter of the queue begins its delivery: DRAINING, with a delivery context at its head (R103). -/
def State.startDelivery (s : State) (i : LetterIx) : State :=
  match s.letters[i] with
  | none => s
  | some l =>
    match l.phase with
    | .queued ticket =>
      (s.setPhase i (.draining ticket)).modDrain (fun d => { d with
        delivery := some { letter := i, number := l.number, next := .head, seg := 0, handle := 0, pos := 0, body := 0,
                           damaged := 0, abort := false } })
    | _ => s

/-- A drain start, where a class is not empty (R103). -/
def State.startNext (s : State) : State :=
  match s.nextHead with
  | some i => s.startDelivery i
  | none => s

/-- A drain start, where no delivery is present, HOLD is clear, the pool link is not paused, the controller is READY, a class is not
empty and no letter is SUSPENDED (R103). -/
def State.takeDrainStart (s : State) : State :=
  if s.drain.delivery.isNone ∧ s.drain.suspended.isNone ∧ s.drainMayAct then s.startNext else s

/-! ### The end of a delivery (R108, R110) -/

/-- Set the delivery context. -/
def State.setDelivery (s : State) (d : Option Delivery) : State := s.modDrain (fun x => { x with delivery := d })

/-- The suspended letter resumes (R110). -/
def State.resume (s : State) (d : Delivery) : State :=
  match s.letters[d.letter] with
  | none => s
  | some l =>
    match l.phase with
    | .suspended ticket =>
      (s.setPhase d.letter (.draining ticket)).modDrain (fun x => { x with
        delivery := some { d with next := if d.abort then .abandon else .resume }, suspended := none })
    | _ => s

/-- The choice of the next delivery (R108). -/
def State.chooseNext (s : State) : State :=
  match s.drain.suspended, s.classOf .urgent with
  | some _, i :: _ => s.startDelivery i
  | some d, [] => s.resume d
  | none, _ => s.startNext

/-- A delivery ends: the letter leaves the issue list and is freed, a counter rises, and the next delivery is chosen (R108, R115). -/
def State.endDelivery (s : State) (d : Delivery) (f : PartCounters → PartCounters) : State :=
  ((((s.leaveIssue d.letter).freeLetter d.letter).setDelivery none).countPart f).chooseNext

/-! ### Suspension and aborts (R109, R115) -/

/-- A suspension is due: the DRAINING letter is ROUTINE and URGENT is not empty (R109). -/
def State.suspensionDue (s : State) (d : Delivery) : Bool :=
  (match s.letters[d.letter] with
    | some l => decide (l.cls = .routine)
    | none => false) && !(s.classOf .urgent).isEmpty

/-- A record boundary at which the Drain Engine may act (R102, R109, R115). -/
def State.boundary (s : State) : Bool := s.drainMayAct && s.drain.forming.isNone

/-- The routine letter gives way: back to QUEUED where no record of it has been handed, else SUSPENDED (R109). -/
def State.giveWay (s : State) (d : Delivery) (ticket : Nat) : State :=
  if d.next = .head then (s.setPhase d.letter (.queued ticket)).setDelivery none
  else (s.setPhase d.letter (.suspended ticket)).modDrain (fun x => { x with
    delivery := none, suspended := some { d with next := .resume } })

/-- The switch, where a suspension is due and can be acted on (R109). -/
def State.takeSuspension (s : State) : State :=
  match s.drain.delivery with
  | none => s
  | some d =>
    match s.letters[d.letter].map Letter.phase, s.classOf .urgent with
    | some (.draining ticket), i :: _ =>
      if s.boundary ∧ s.suspensionDue d ∧ d.abort = false ∧ s.drain.suspended = none then (s.giveWay d ticket).startDelivery i else s
    | _, _ => s

/-- The pending abort of the DRAINING letter, where it can be acted on: with Next HEAD the letter is freed without a record, otherwise Next
becomes ABANDON (R115). -/
def State.takeAbort (s : State) : State :=
  match s.drain.delivery with
  | none => s
  | some d =>
    if s.boundary ∧ d.abort ∧ d.next ≠ .abandon then
      if d.next = .head then s.endDelivery d (PartCounters.addAbandoned 1)
      else s.setDelivery (some { d with next := .abandon })
    else s

/-! ### What the engine does in an event that lets it act -/

/-- The Drain Engine acts at once, where it may: a drain start with no delivery present (R103), else a pending abort, else a due suspension, at
the record boundary at which it stands (R102, R109, R112, R113, R115). -/
def State.drainActs (s : State) : State :=
  match s.drain.delivery with
  | none => s.takeDrainStart
  | some d => if d.abort then s.takeAbort else s.takeSuspension

/-- A letter has joined a class of the queue: in that event a drain start is taken, or the suspension that is now due is acted on, where
it can be (R102, R103, R109). A routine letter whose next record is its LETTER-END does not give way to the arrival (R111; log entry 21). -/
def State.queueGrew (s : State) : State :=
  match s.drain.delivery with
  | none => s.takeDrainStart
  | some d => if d.next = .ending then s else s.takeSuspension

end Sys2Proof.Machine
end

