-- ==== Sys2Proof/Machine/PlayerOps.lean ====
section
/-! DEFINITION. The Player: obtaining, playing and pacing the blocks of a review, and stopping it (R87 to R96). -/

namespace Sys2Proof.Machine

/-- The walk place one block on; absent after the last block of the list (R89). -/
def nextWalk (list : List Segment) (w : Nat × Nat) : Option (Nat × Nat) :=
  match list[w.1]? with
  | none => none
  | some g =>
    if w.2 + 1 < g.dur then some (w.1, w.2 + 1)
    else if w.1 + 1 < list.length then some (w.1 + 1, 0)
    else none

/-- What a walk place holds: a block location that must be read, or a block of zeros with its content (R89). -/
inductive WalkBlock where
  | read (loc : Nat)
  | zeros (content : Content)
deriving DecidableEq, Repr

/-- What a segment holds at an offset (R89). -/
def Segment.blockAt (off : Nat) : Segment → WalkBlock
  | .silence _ => .zeros .silence
  | .gap _ => .zeros .gap
  | .speech hs =>
    match hs[off]? with
    | some (.loc n) => .read n
    | _ => .zeros .damaged

/-- A block of 256 zeros at a position (R89). -/
def zeroAudio (pos : Nat) (content : Content) : BlockAudio :=
  { pos := pos, content := content, cond := Conditions.clear, samples := List.replicate blockSamples 0 }

/-- The Player obtains the block at the walk place, where the next-block field is free and the walk place is present (R89, R94). A read of an
earlier, stopped review of the channel that still waits or is in progress (R96) does not hold the new one back, which R130's one read per
reviewing channel leaves open (DESIGN CHOICE, unsafe: log entry 41). -/
def State.obtain (s : State) (ch : Chan) : State :=
  match s.player[ch].review with
  | none => s
  | some r =>
    match r.next, r.walk, s.letters[r.letter] with
    | none, some w, some l =>
      match l.list[w.1]? with
      | none => s
      | some g =>
        let pos := segStart l.list w.1 + w.2
        match g.blockAt w.2 with
        | .read n =>
          (s.modReview ch (fun r => { r with next := some (.obtaining pos), walk := nextWalk l.list w })).request
            { claim := .playerRead ch true { number := l.number, chan := ch, pos := pos }, loc := n }
        | .zeros c =>
          s.modReview ch (fun r => { r with next := some (.ready (zeroAudio pos c)), walk := nextWalk l.list w })
    | _, _, _ => s

/-- Frame i of a block (R92). -/
def BlockAudio.frame (a : BlockAudio) (seq : Word16) (i : Nat) : ReviewFrame :=
  { seq := seq, pos := a.pos, index := i, content := a.content, cond := a.cond,
    samples := (a.samples.drop (frameSamples * i)).take frameSamples }

/-- A review audio frame joins the channel's queue where that holds fewer than 8, and is dropped and counted otherwise (R160). -/
def State.handReview (s : State) (ch : Chan) (f : ReviewFrame) : State :=
  if s.station.audio[ch].length < 8 then s.modStation (fun p => { p with audio := upd p.audio ch (fun q => q ++ [f]) })
  else s.countPart (PartCounters.addReviewDrops 1)

/-- The next frame of the play block is sent; the sequence number advances (R92), and after frame 3 the letter's cursor stands behind
the block (R94). -/
def State.sendFrame (s : State) (ch : Chan) : State :=
  match s.player[ch].review with
  | none => s
  | some r =>
    match r.play with
    | none => s
    | some p =>
      let s1 := s.handReview ch (p.audio.frame s.player[ch].seq p.sent)
      let s2 := s1.modPlayer ch (fun c => { c with
        seq := c.seq + 1, review := c.review.map (fun r => { r with play := some { p with sent := p.sent + 1 } }) })
      if p.sent = 3 then s2.modLetter r.letter (fun l => { l with cursor := p.audio.pos + 1 }) else s2

/-- A READY next block takes the place of the play block, with no frames sent (R94). -/
def Review.promote (r : Review) : Review :=
  match r.next with
  | some (.ready a) => { r with play := some { audio := a, sent := 0 }, next := none }
  | some (.obtaining _) => { r with play := none }
  | none => r

/-- The next block has become READY with no play block: it becomes the play block; where the pace timer is stopped (at the start of
the review, or late) its frame 0 is sent at once and the timer starts (R88, R93). The block behind it is then obtained (R94). -/
def State.playReady (s : State) (ch : Chan) : State :=
  match s.player[ch].review with
  | none => s
  | some r =>
    match r.play, r.next with
    | none, some (.ready _) =>
      let s1 := s.modReview ch Review.promote
      let s2 := if r.pace then s1
                else (s1.sendFrame ch).modReview ch (fun r => { r with late := false, pace := true })
      s2.obtain ch
    | _, _ => s

/-- A review starts on a letter from its cursor (R88). -/
def State.startReview (s : State) (ch : Chan) (i : LetterIx) (l : Letter) : State :=
  let s1 := s.modPlayer ch (fun c => { c with
    review := some { letter := i, play := none, next := none, walk := locate l.list l.cursor, pace := false, late := false } })
  (s1.obtain ch).playReady ch

/-- A Player read of a channel is no longer wanted: its review has been stopped (R96). -/
def Claim.unwant (ch : Chan) : Claim → Claim
  | .playerRead c w x => .playerRead c (w && decide (c ≠ ch)) x
  | c => c

/-- A review is stopped: the context returns to IDLE, and a read in progress is not withdrawn but its contents will be discarded (R96). -/
def State.stopReview (s : State) (ch : Chan) : State :=
  (s.modPlayer ch (fun c => { c with review := none })).modMem (fun m => { m with
    waiting := m.waiting.map (fun a => { a with claim := a.claim.unwant ch }),
    granted := m.granted.map (fun a => { a with claim := a.claim.unwant ch }) })

/-- A block that the Player was obtaining becomes READY (R90, R93). -/
def State.blockReady (s : State) (ch : Chan) (a : BlockAudio) : State :=
  (s.modReview ch (fun r => { r with next := some (.ready a) })).playReady ch

/-- A pace expiry with a frame due: the next frame is sent; when it is frame 3 the play block is replaced and the block behind it
obtained (R93, R94). -/
def State.paceFrame (s : State) (ch : Chan) (sent : Nat) : State :=
  let s1 := s.sendFrame ch
  if sent = 3 then (s1.modReview ch Review.promote).obtain ch else s1

end Sys2Proof.Machine
end

