-- ==== Sys2Proof/Machine/Letters.lean ====
section
/-! DEFINITION. The Letter Controller's shared operations: freeing and closing a letter (R25, R26), force-stops (R18, R19), the reads of a
channel entry and what a damaged one brings (R139, R143, R145), the idle timer (R7) and the start of a take (R12). -/

namespace Sys2Proof.Machine

/-! ### Freeing and closing (R25, R26, R98, R99) -/

/-- The tickets that letters in the issue list hold (R99). -/
def State.ticketsHeld (s : State) : List Nat :=
  s.drain.issue.filterMap (fun i => s.letters[i].bind (fun l => l.phase.ticket?))

/-- A letter joins the drain queue: it gets a new ticket and stands at the tail of the issue list, QUEUED (R25, R98, R99). -/
def State.enqueue (s : State) (i : LetterIx) : State :=
  let ticket := freshFrom s.ticketsHeld 96 s.drain.ticket
  (s.setPhase i (.queued ticket)).modDrain (fun d => { d with issue := d.issue ++ [i], ticket := advance32 ticket })

/-- The Channel Table is told that the channel has no live letter (R25, R26). -/
def State.tellNoLive (s : State) (ch : Chan) : State := s.modWires (fun w => { w with noLive := upd w.noLive ch (fun n => n + 1) })

/-- The channel's current letter becomes absent, which clears the discard arm and stops the idle timer (R6, R7, R25). -/
def State.dropCurrent (s : State) (ch : Chan) : State :=
  s.modCtx ch (fun c => { c with current := none, armed := false, idle := none })

/-- A channel's current letter is closed: into the drain queue, where the Drain Engine acts on it in the same event (R103, R109), or freed at
length 0 (R25). -/
def State.closeCurrent (s : State) (ch : Chan) : State :=
  match s.currentLetter ch with
  | none => s
  | some (i, l) =>
    let s1 := s.dropCurrent ch
    if l.length = 0 then ((s1.freeLetter i).modCtx ch (fun c => { c with lastClosed := none })).tellNoLive ch
    else (((s1.enqueue i).modCtx ch (fun c => { c with lastClosed := some (i, l.number) })).tellNoLive ch).queueGrew

/-- The result of a close in the reply that tells of it, with the letter's values: DONE where it joined the queue, EMPTY where it
was freed (R7, R24). -/
def closeResult (l : Letter) : KeyResult × LetterView :=
  if l.length = 0 then (.empty, LetterView.freed l.number) else (.done, l.view)

/-- A channel's last-closed letter where it is not gone (R4). -/
def State.lastLetter (s : State) (i : LetterIx) (number : Nat) : Option Letter :=
  match s.letters[i] with
  | some l => if l.number = number then some l else none
  | none => none

/-! ### Force-stops (R18, R19) and the ENTRY close (R20) -/

/-- A take with a force-stop cause taken (R19). -/
def Take.stopped (t : Take) (c : StopCause) : Take :=
  { t with causes := if t.causes.contains c then t.causes else t.causes ++ [c], closeAtCommit := t.closeAtCommit || c.closes }

/-- A force-stop of the take of a channel's current letter (R19): the letter is FINISHING, Capture is asked to finish, with discard for
LENGTH, MEMORY and FAILED, and a cause not yet reported sends its LIMIT reply. A channel without a take is not changed. -/
def State.forceStopTake (s : State) (ch : Chan) (c : StopCause) : State :=
  match s.currentLetter ch with
  | none => s
  | some (i, l) =>
    match l.phase.take? with
    | none => s
    | some t =>
      let s1 := s.setPhase i (.finishing (t.stopped c))
      let s2 := if c.discards then s1.askCapture ch .finishingDiscard
                else match l.phase with
                  | .recording _ => s1.askCapture ch .finishing
                  | _ => s1
      if t.causes.contains c then s2 else s2.tell ch codeLimit c.limitResult (some c) l.view

/-- The Letter Controller acts on a channel's current letter as for a damaged entry, cause ENTRY: a take is force-stopped, an OPEN or
REVIEWING letter is closed at once, its review stopped first and a LIMIT reply sent with its values before the close (R20). -/
def State.entryStop (s : State) (ch : Chan) : State :=
  match s.currentLetter ch with
  | none => s
  | some (_, l) =>
    match l.phase with
    | .recording _ | .finishing _ => s.forceStopTake ch .entry
    | .opened => (s.tell ch codeLimit .blocked (some .entry) l.view).closeCurrent ch
    | .reviewing => ((s.stopReview ch).tell ch codeLimit .blocked (some .entry) l.view).closeCurrent ch
    | _ => s

/-! ### The Channel Table (R139, R143, R145) -/

/-- A pending copy is applied: with its parity right it becomes the in-force copy and the entry is GOOD; with its parity wrong it is
discarded, the entry is DAMAGED, and the detection to make is answered (R139). -/
def State.applyPendingCopy (s : State) (ch : Chan) : State × Option FaultContext :=
  match s.table[ch].pendingCopy with
  | none => (s, none)
  | some p =>
    if p.parityOk then
      (s.modEntry ch (fun _ => { damaged := false, inForce := { settings := p.settings, parityOk := true }, pendingCopy := none }), none)
    else
      (s.modEntry ch (fun e => { e with damaged := true, pendingCopy := none }),
       some { kind := .tableParity, place := .channelEntry ch true, number := none, chan := none, pos := none })

/-- A pending copy is applied, and a detection made is passed to the Fault Record (R139). Where the copy's wrong parity makes a GOOD
entry DAMAGED, the channel's current letter is stopped or closed for it (R18, R20); an entry that was DAMAGED has had its stop. -/
def State.takePendingCopy (s : State) (ch : Chan) : State :=
  match s.applyPendingCopy ch with
  | (s1, none) => s1
  | (s1, some c) => if s.table[ch].damaged then s1.detect c else (s1.detect c).entryStop ch

/-- A read has found the parity of an entry's in-force copy wrong (R143): the entry is DAMAGED, a detection names the channel and its
current letter, the letter's take is force-stopped or the letter closed, and a pending copy is applied. -/
def State.damageEntry (s : State) (ch : Chan) : State :=
  let s1 := s.modEntry ch (fun e => { e with damaged := true })
  let s2 := s1.detect { kind := .tableParity, place := .channelEntry ch false,
                        number := (s.currentLetter ch).map (fun il => il.2.number), chan := some ch, pos := none }
  (s2.entryStop ch).takePendingCopy ch

/-- A read of an entry by the Frame Classifier or the Letter Controller, and the settings it delivers: none for a DAMAGED entry, and
none where the read finds the parity wrong, which R143 then deals with (R143 to R146). -/
def State.readEntry (s : State) (ch : Chan) : State × Option Settings :=
  if s.table[ch].damaged then (s, none)
  else if s.table[ch].inForce.parityOk then (s, some s.table[ch].inForce.settings)
  else (s.damageEntry ch, none)

/-- The idle timer of a channel is started or restarted with the idle minutes of the entry in force; with 0 minutes, or where the
read delivers nothing, it is stopped (R7, R145). -/
def State.startIdle (s : State) (ch : Chan) : State :=
  match s.readEntry ch with
  | (s1, some st) => s1.modCtx ch (fun c => { c with idle := if st.minutes = 0 then none else some st.minutes })
  | (s1, none) => s1.modCtx ch (fun c => { c with idle := none })

/-- A letter of a channel enters OPEN, and its idle timer starts (R7). -/
def State.enterOpen (s : State) (ch : Chan) (i : LetterIx) : State := (s.setPhase i .opened).startIdle ch

/-- The device stops a channel's review: the letter is OPEN, its idle timer starts, and an unsolicited REVIEW reply is sent (R20). A
channel without a review is not changed. Where the read for the idle timer finds the entry's parity wrong, the LIMIT reply of R143 goes
out before the REVIEW reply: the spec gives the two no order (DESIGN CHOICE, log entry 34). -/
def State.deviceStopsReview (s : State) (ch : Chan) (result : KeyResult) (cause : StopCause) : State :=
  match s.currentLetter ch with
  | none => s
  | some (i, l) =>
    match l.phase with
    | .reviewing => ((s.stopReview ch).enterOpen ch i).tell ch HandsetKey.review.code result (some cause) l.view
    | _ => s

/-! ### The start of a take (R12, R79) -/

/-- The Coder is told that a take has begun: the detector is reset, and the take-start read of the slot is made. With parameters the
carry is K_init; without, the channel is withheld (R12, R58, R79, R83). -/
def State.coderTakeStart (s : State) (ch : Chan) (k : Slot) (number serial : Nat) : State :=
  let s1 := s.modCoder ch (fun c => { c with serial := serial, number := number, slot := k, detector := .talk, halted := false, withheld := false })
  match s1.readSlot k (some number) ch none with
  | (s2, some P) => s2.modCoder ch (fun c => { c with carry := P.kInit })
  | (s2, none) => s2.modCoder ch (fun c => { c with withheld := true })

/-- A take starts on a letter, the channel's current letter (R12). -/
def State.startTake (s : State) (ch : Chan) (i : LetterIx) (l : Letter) (mode : TakeMode) : State :=
  let serial := advanceSerial s.ctxs[ch].takeSerial
  let s1 := s.flushCapture ch
  let s2 := s1.modCtx ch (fun c => { c with takeSerial := serial, idle := none })
  let s3 := s2.setPhase i (.recording { mode := mode, start := l.cursor, list := [], serial := serial, stopOwed := false,
                                        closeAtCommit := false, causes := [] })
  let s4 := s3.modCapture ch (fun c => { c with state := .capturing, expected := none })
  s4.coderTakeStart ch l.slot l.number serial

end Sys2Proof.Machine
end

