-- ==== Sys2Proof/Machine/CoderOps.lean ====
section
/-! DEFINITION. The Coder: service of the next ready channel (R80 to R83) and the completion of its write (R84). -/

namespace Sys2Proof.Machine

/-- A channel is ready: its ring's head entry is whole or a gap entry, and it is not halted (R80). -/
def State.coderReady (s : State) (ch : Chan) : Bool :=
  match s.capture[ch].ring.head? with
  | some e => e.serviceable && !s.coder.chans[ch].halted
  | none => false

/-- A sample block is discarded without an outcome: 4 counts of stray audio (R82, R83). -/
def State.discardBlock (s : State) (ch : Chan) : State := s.count ch (ChanCounters.addStray 4)

/-- A gap entry is served (R81). -/
def State.serveGap (s : State) (ch : Chan) (c : GapCause) (n : Nat) : State :=
  (List.replicate n (CoderReport.outcome s.coder.chans[ch].serial (.gap c))).foldl (fun s r => s.report ch r) s

/-- A judged block gets a location, is coded, and its write is requested (R82, steps 5 and 6). -/
def State.beginWrite (s : State) (ch : Chan) (P : Profile) (loc : Nat) (free : List (Nat × Nat)) (xs : List Sample)
    (filled padded : Bool) : State :=
  let out := codeBlock P s.coder.chans[ch].carry xs filled padded
  let s1 := s.modMem (fun m => { m with free := free, held := m.held ++ [{ loc := loc, releasing := false, writing := true }] })
  let s2 := s1.modCoder ch (fun c => { c with carry := out.2 })
  let s3 := { s2 with coder := { s2.coder with
    write := some { chan := ch, serial := s.coder.chans[ch].serial, loc := loc, block := out.1 } } }
  s3.request { claim := .coderWrite, loc := loc }

/-- A block judged coded asks for a location (R82, step 4; R124). -/
def State.serveCoded (s : State) (ch : Chan) (P : Profile) (xs : List Sample) (filled padded : Bool) : State :=
  if s.mem.ctrl = .ready then
    match runsPop s.mem.free with
    | some (loc, free) => s.beginWrite ch P loc free xs filled padded
    | none =>
      ((s.discardBlock ch).modCoder ch (fun c => { c with halted := true })).report ch (.memoryStop s.coder.chans[ch].serial)
  else s.discardBlock ch

/-- A block is judged: the detector steps, and the block is reported silent or goes on to be coded (R82, steps 2 to 4). -/
def State.judge (s : State) (ch : Chan) (P : Profile) (xs : List Sample) (filled padded : Bool) : State :=
  let out := Talk.step P (energy xs) s.coder.chans[ch].detector
  let s1 := s.modCoder ch (fun c => { c with detector := out.2 })
  if out.1 then s1.serveCoded ch P xs filled padded
  else (s1.count ch (ChanCounters.addSilent 1)).report ch (.outcome s.coder.chans[ch].serial .silent)

/-- A sample block is served (R82, R83). A detection of its read names the letter whose take started last on the channel (R55). For a block of
a channel that is withheld already no read is made, and so no parity is tested, where R82 names the read before the withheld channel
and R83 is silent: such a block needs no parameters (DEDUCED, log entry 38). -/
def State.serveBlock (s : State) (ch : Chan) (xs : List Sample) (filled padded : Bool) : State :=
  if s.coder.chans[ch].withheld then s.discardBlock ch
  else
    match s.readSlot s.coder.chans[ch].slot (some s.coder.chans[ch].number) ch none with
    | (s1, some P) => s1.judge ch P xs filled padded
    | (s1, none) => (s1.modCoder ch (fun c => { c with withheld := true })).discardBlock ch

/-- An entry taken from a channel's ring is served (R81, R82). -/
def State.serveEntry (s : State) (ch : Chan) : RingEntry → State
  | .gap c n => s.serveGap ch c n
  | .block xs filled padded => s.serveBlock ch xs filled padded

/-- The Coder serves a channel: the pointer becomes the channel, the head entry leaves the ring and is served, and the end-of-take
report follows where this was the last it waited for (R80, R85). -/
def State.serve (s : State) (ch : Chan) : State :=
  match s.capture[ch].ring with
  | [] => s
  | e :: rest =>
    let s1 := { s with coder := { s.coder with ptr := ch } }
    ((s1.modCapture ch (fun c => { c with ring := rest })).serveEntry ch e).endOfTakeCheck ch

/-- CODER_SERVICE (R80): the free Coder serves the first ready channel after its pointer. -/
def execCoderService (us : List Upset) (s : State) : Host.Outcome State Fault Refusal :=
  .next (if s.coder.write.isSome then s
    else match cyclicFrom s.coder.ptr s.coderReady with
      | none => s
      | some ch => (s.upsets us).serve ch)

/-- The write of a coded block completes (R84): the location holds it, the counters rise, the outcome is reported and the Coder is free. -/
def State.writeDone (s : State) (w : CodedWrite) : State :=
  let s1 := s.modMem (fun m => { m with
    granted := none,
    cells := Memory.write m.cells w.loc { block := w.block, errs := [] },
    held := m.held.map (fun h => if h.loc = w.loc then { h with writing := false } else h) })
  let s2 := s1.count w.chan (fun c =>
    ChanCounters.addCoded 1 (ChanCounters.addSat w.block.cond.sat.toNat (ChanCounters.addClip w.block.cond.clip.toNat c)))
  let s3 := { s2 with coder := { s2.coder with write := none } }
  (s3.report w.chan (.outcome w.serial (.coded w.loc))).endOfTakeCheck w.chan

/-- CODER_WRITE_COMPLETE (R84). -/
def execCoderWriteComplete (s : State) : Host.Outcome State Fault Refusal :=
  .next (match s.mem.granted, s.coder.write with
    | some { claim := .coderWrite, loc := _ }, some w => s.writeDone w
    | _, _ => s)

end Sys2Proof.Machine
end

