-- ==== Sys2Proof/Machine/Formats.lean ====
section
/-! DEFINITION. The bytes of every frame the device sends (R153, R154, R182, 11.2, 11.3, 11.4). -/

namespace Sys2Proof.Machine

/-! ### The envelope (R153, R182) -/

/-- A whole frame: start pattern, length, 2-byte header, payload and frame check (R153, R182). -/
def frameBytes (kind chan : Byte) (payload : List Byte) : List Byte :=
  startByte :: startSecond :: byte2 payload.length ++ (kind :: chan :: payload) ++ byte2 (frameCheck (kind :: chan :: payload)).toNat

/-! ### Fields (11.3) -/

/-- A yes-or-no flag: 00h no, 01h yes (11.3). -/
def flagBytes (b : Bool) : List Byte := byte1 b.toNat

/-- An optional field or group of a width: a presence byte, then the fields, zero when absent (11.3). -/
def optionalBytes (width : Nat) : Option (List Byte) → List Byte
  | none => byte1 0 ++ List.replicate width 0
  | some bs => byte1 1 ++ bs

/-- The six settings: mode 1, author ID 3, slot 1, class 1, max duration 2, idle minutes 1 (R138, 11.3). -/
def settingsBytes (s : Settings) : List Byte :=
  byte1 (modeCode s.mode) ++ byte3 s.author ++ byte1 s.slot.val ++ byte1 (classCode s.cls) ++ byte2 s.maxDur ++ byte1 s.minutes

/-- The profile image, 145 bytes (11.3). -/
def profileBytes (p : Profile) : List Byte :=
  byte1 p.w ++ byte1 p.kInit ++ p.step.flatMap byte2 ++ p.adj.map byteOfSigned ++
  byte2 p.tEnter ++ byte2 p.tLeave ++ byte1 p.hang ++ byte2 p.cap

/-- The location of a detection: type 1, value 4, copy 1 (11.3). -/
def placeBytes : FaultPlace → List Byte
  | .location n => byte1 1 ++ byte4 n ++ byte1 0
  | .profileSlot k => byte1 2 ++ byte4 k.val ++ byte1 0
  | .channelEntry ch pendingCopy => byte1 3 ++ byte4 ch.val ++ flagBytes pendingCopy

/-- A context, 18 bytes, all zero where it is absent (11.3). -/
def contextBytes : Option FaultContext → List Byte
  | none => List.replicate 18 0
  | some c =>
    byte1 1 ++ byte1 c.kind.toCode ++ placeBytes c.place ++ optionalBytes 4 (c.number.map byte4) ++
    optionalBytes 1 (c.chan.map (fun ch => byte1 ch.val)) ++ optionalBytes 2 (c.pos.map byte2)

/-! ### Payloads (11.2 to 11.4) -/

/-- The payload of a KEY-REPLY, 11 bytes (11.2). -/
def keyReplyPayload (r : KeyReply) : List Byte :=
  r.code :: byte1 r.result.toCode ++ byte1 (match r.cause with | none => 0 | some c => c.toCode) ++
  byte2 r.cursor ++ byte2 r.length ++ byte4 r.number

/-- The payload of a REVIEW-AUDIO frame, 135 bytes (11.2). -/
def reviewPayload (f : ReviewFrame) : List Byte :=
  byte2 f.seq.toNat ++ byte2 f.pos ++ byte1 f.index ++ byte1 f.content.toCode ++ [f.cond.toByte] ++ f.samples.flatMap sampleBytes

/-- The payload of a MGMT-REPLY: kind, tag, status and fields (11.3). -/
def mgmtReplyPayload (r : Reply) : List Byte := r.kind :: byte2 r.tag.toNat ++ byte1 r.status.toCode ++ r.fields

/-- The payload of a FAULT-NOTICE, 23 bytes (11.3). -/
def noticePayload (n : Notice) : List Byte := byte1 n.kind.toCode ++ byte4 n.count ++ contextBytes (some n.context)

/-- The payload of a BYPASS frame: the original kind, then the station payload (11.4). -/
def bypassPayload (f : BypassFrame) : List Byte := byte1 (if f.isKey then 2 else 1) ++ f.payload

/-- The kind of a drain record (11.4). -/
def DrainRecord.kind : DrainRecord → Byte
  | .letterHead .. => 0x40#8
  | .block .. => 0x41#8
  | .silence .. => 0x42#8
  | .gap .. => 0x43#8
  | .letterResume .. => 0x44#8
  | .letterEnd .. => 0x45#8
  | .letterAbandon .. => 0x46#8

/-- The payload of a drain record (11.4). -/
def DrainRecord.payload : DrainRecord → List Byte
  | .letterHead number chan author cls slot generation w length segments ticket =>
    byte4 number ++ byte1 chan.val ++ byte3 author ++ byte1 (classCode cls) ++ byte1 slot.val ++ byte2 generation ++
    byte1 w ++ byte2 length ++ byte2 segments ++ byte4 ticket
  | .block number pos b =>
    byte4 number ++ byte2 pos ++ sampleBytes b.p0 ++ byte1 b.k0 ++ byte1 b.w ++ [b.cond.toByte] ++ b.code
  | .silence number pos trueDur playedDur => byte4 number ++ byte2 pos ++ byte2 trueDur ++ byte2 playedDur
  | .gap number pos cause => byte4 number ++ byte2 pos ++ byte2 1 ++ byte1 cause.toCode
  | .letterResume number walkPos body => byte4 number ++ byte2 walkPos ++ byte2 body
  | .letterEnd number body blocks damaged => byte4 number ++ byte2 body ++ byte2 blocks ++ byte2 damaged
  | .letterAbandon number walkPos body => byte4 number ++ byte2 walkPos ++ byte2 body

/-- The bytes of a frame the station transmitter sends (11.1). -/
def StationFrame.bytes : StationFrame → List Byte
  | .keyReply ch r => frameBytes 0x11#8 (BitVec.ofNat 8 ch.val) (keyReplyPayload r)
  | .reviewAudio ch f => frameBytes 0x12#8 (BitVec.ofNat 8 ch.val) (reviewPayload f)

/-- The bytes of a frame the pool transmitter sends (11.1). -/
def PoolFrame.bytes : PoolFrame → List Byte
  | .control (.reply r) => frameBytes 0x31#8 0x00#8 (mgmtReplyPayload r)
  | .control (.notice n) => frameBytes 0x32#8 0x00#8 (noticePayload n)
  | .bypass f => frameBytes 0x33#8 (BitVec.ofNat 8 f.chan.val) (bypassPayload f)
  | .drain r => frameBytes r.kind 0x00#8 r.payload

end Sys2Proof.Machine
end

