-- ==== Sys2Proof/Machine/MemoryFam.lean ====
section
/-! DEFINITION. The Block Memory Controller: the arbiter (R130), INIT (R122, R123), FAILED (R131, R132), the Player's reads (R90, R91)
and the patrol (R133 to R135). -/

namespace Sys2Proof.Machine

/-! ### The arbiter (R130) -/

/-- The place of a claim in the order of claim; INIT runs alone (R130). -/
def Claim.rank : Claim → Nat
  | .initWrite => 0
  | .coderWrite => 1
  | .playerRead _ _ _ => 2
  | .drainRead _ => 3
  | .patrolRead => 4

/-- The request that is granted next: the first claim in the order of claim, the oldest among equals (R130). -/
def firstClaim (waiting : List Access) : Option Access :=
  waiting.foldl (fun best a => match best with
    | none => some a
    | some b => if a.claim.rank < b.claim.rank then some a else some b) none

/-- ARBITER_GRANT (R130). -/
def execArbiterGrant (s : State) : Host.Outcome State Fault Refusal :=
  .next (match s.mem.granted, firstClaim s.mem.waiting with
    | none, some a => s.modMem (fun m => { m with waiting := m.waiting.erase a, granted := some a })
    | _, _ => s)

/-! ### INIT (R122, R123) -/

/-- The first location from `n` on that is not retired (R123); `fuel` bounds the search. -/
def skipRetired (retired : List Nat) : Nat → Nat → Nat
  | 0, n => n
  | fuel + 1, n => if retired.contains n then skipRetired retired fuel (n + 1) else n

/-- INIT goes on with the location at `n` or after it, or completes where there is none (R122, R123). -/
def BlockMemory.initFrom (m : BlockMemory) (n : Nat) : BlockMemory :=
  let next := skipRetired m.retired m.retired.length n
  if next < nLocations then { m with initNext := next, waiting := [{ claim := .initWrite, loc := next }] }
  else { m with ctrl := .ready, initNext := next, waiting := [] }

/-- INIT_WRITE_COMPLETE (R122): the controller's becoming READY lets the Drain Engine act in its event (R103). -/
def execInitWriteComplete (s : State) : Host.Outcome State Fault Refusal :=
  .next (match s.mem.granted with
    | some { claim := .initWrite, loc := n } =>
      (s.modMem (fun m =>
        { m with granted := none, cells := Memory.write m.cells n zeroStored, free := runsPush m.free n : BlockMemory }.initFrom
          (n + 1))).drainActs
    | _ => s)

/-! ### FAILED (R131, R132) -/

/-- The Coder's write in progress is abandoned (R84). -/
def State.abandonWrite (s : State) : State :=
  match s.coder.write with
  | none => s
  | some w =>
    let s1 := (s.handBack w.loc).count w.chan (ChanCounters.addStray 4)
    ({ s1 with coder := { s1.coder with write := none } }).endOfTakeCheck w.chan

/-- The RELEASING locations, in the order they were handed back. -/
def BlockMemory.releasing (m : BlockMemory) : List Nat := (m.held.filter Held.releasing).map Held.loc

/-- The controller enters FAILED with the access whose limit expired (R131, R132, R84, R117). -/
def State.enterFailed (s : State) (a : Access) : State :=
  let s1 := s.modMem (fun m => { m with ctrl := .failed, waiting := [], granted := none })
  let s2 := s1.abandonWrite
  let s3 := s2.mem.releasing.foldl State.placeLoc s2
  let s4 := s3.detect (locationContext .noResponse a.loc none)
  (s4.modDrain (fun d => { d with forming := none })).modWires (fun w => { w with
    takeStops := w.takeStops ++ [.failed], reviewStops := w.reviewStops ++ [.failed] })

/-- ACCESS_TIMEOUT (R131). -/
def execAccessTimeout (s : State) : Host.Outcome State Fault Refusal :=
  .next (match s.mem.granted with
    | none => s
    | some a => s.enterFailed a)

/-! ### The Player's reads (R90, R91, R96) -/

/-- The Player decodes a block whose contents were delivered, after one read of the letter's profile slot; where that delivers no
parameters the block stays OBTAINING (R90, R91). -/
def State.decodeFor (s : State) (ch : Chan) (l : Letter) (pos : Nat) (b : CodedBlock) : State :=
  match s.readSlot l.slot (some l.number) ch (some pos) with
  | (s1, some P) =>
    s1.blockReady ch { pos := pos, content := .speech, cond := b.cond, samples := decodeBlock P b }
  | (s1, none) => s1

/-- The Player acts on the result of its read for a channel (R90). -/
def State.playerRead (s : State) (ch : Chan) (r : ReadResult) (b : CodedBlock) : State :=
  match s.player[ch].review with
  | none => s
  | some v =>
    match v.next, s.letters[v.letter] with
    | some (.obtaining pos), some l =>
      match r with
      | .uncorrectable => s.blockReady ch (zeroAudio pos .damaged)
      | _ => s.decodeFor ch l pos b
    | _, _ => s

/-- PLAYER_READ_COMPLETE (R90, R91, R96, R127 to R129). -/
def execPlayerReadComplete (found : List BitError) (us : List Upset) (s : State) : Host.Outcome State Fault Refusal :=
  .next (match s.mem.granted with
    | some { claim := .playerRead ch wanted ctx, loc := n } =>
      let s1 := (s.upsets us).completeRead n (some ctx) found
      if wanted then s1.playerRead ch (s.readResult n found) (Memory.read s.mem.cells n).block else s1
    | _ => s)

/-! ### The patrol (R133 to R135) -/

/-- A patrol read is in progress (R133). -/
def BlockMemory.patrolling (m : BlockMemory) : Bool := (m.granted.toList ++ m.waiting).any (fun a => a.claim == .patrolRead)

/-- A visit of the location at the patrol pointer (R134). -/
def State.visit (s : State) : State :=
  let n := s.mem.patrolPtr
  let s1 := if s.mem.status n = .allocated false then s.request { claim := .patrolRead, loc := n } else s
  s1.modMem (fun m => { m with patrolPtr := if n + 1 < nLocations then n + 1 else 0 })

/-- PATROL_VISIT (R133, R134): the patrol timer expires. It runs only while the controller is READY and the enable is on. -/
def execPatrolVisit (s : State) : Host.Outcome State Fault Refusal :=
  .next (if s.mem.ctrl = .ready ∧ s.mgmt.patrolOn ∧ s.mem.patrolling = false then s.visit else s)

/-- PATROL_READ_COMPLETE (R135). -/
def execPatrolReadComplete (found : List BitError) (s : State) : Host.Outcome State Fault Refusal :=
  .next (match s.mem.granted with
    | some { claim := .patrolRead, loc := n } => s.completeRead n none found
    | _ => s)

end Sys2Proof.Machine
end

