-- ==== Sys2Proof/Machine/Reset.lean ====
section
/-! DEFINITION. The two resets: power-on (R122), and the reset event of a SOFT-RESET (R180, R181), which is the event in which its OK reply
joins the control queue. -/

namespace Sys2Proof.Machine

/-- POWER_ON: every block takes its power-on values. The commands that wait are the world's and stay (log entry 2), and whether a signal
is present is the line's to say (R156; log entry 14). -/
def execPowerOn (s : State) : Host.Outcome State Fault Refusal :=
  .next { State.reset with
    pending := s.pending
    station := { StationPort.reset with rx := { Receiver.reset with signal := s.station.rx.signal } }
    pool := { PoolPort.reset with rx := { Receiver.reset with signal := s.pool.rx.signal } } }

/-- Block memory in the reset event: a new INIT, which keeps the retired list and the weak marks (R123). -/
def BlockMemory.softReset (m : BlockMemory) : BlockMemory :=
  { m with ctrl := .init, free := [], held := [], granted := none, patrolPtr := 0 : BlockMemory }.initFrom 0

/-- The Management Handler in the reset event (R164, R180). -/
def Management.softReset (m : Management) : Management :=
  { Management.reset with level := m.level, letterCounter := m.letterCounter, patrolOn := m.patrolOn }

/-- A pending copy is applied in the reset event, its detection taken by the Fault Record at once (R139, R180). -/
def State.resetCopy (s : State) (ch : Chan) : State :=
  match s.applyPendingCopy ch with
  | (s1, none) => s1
  | (s1, some c) => s1.recordDetection c

/-- Every block after steps 1 to 3 of the reset event (R180, R181). -/
def State.resetBlocks (s : State) : State :=
  { pending := s.pending,
    station := { s.station with inFlight := Vector.replicate 48 0 },
    pool := { s.pool with flow := .go },
    table := s.table,
    profiles := s.profiles.map (fun p => { p with refs := 0 }),
    letters := Vector.replicate 96 none,
    ctxs := Vector.replicate 48 Context.reset,
    freeSegs := nSegments,
    capture := Vector.replicate 48 Capture.reset,
    coder := Coder.reset,
    player := Vector.replicate 48 PlayerChan.reset,
    drain := Drain.reset,
    mem := s.mem.softReset,
    mgmt := s.mgmt.softReset,
    wires := Wires.reset }

/-- The reset event (R180, R181). -/
def State.softReset (s : State) : State := (List.finRange 48).foldl State.resetCopy s.resetBlocks

/-- A reply of the control queue is the OK of a SOFT-RESET (R180). -/
def Reply.softResetOk (r : Reply) : Bool := r.kind == 0x14#8 && decide (r.status = .ok)

/-- A reply stands at the end of the control queue, and is held no more (R166). -/
def State.queueReply (s : State) (r : Reply) : State :=
  (s.modPool (fun p => { p with control := p.control ++ [.reply r] })).modMgmt (fun m => { m with heldReply := none })

/-- A reply joins the control queue (R166). In the event in which the OK of a SOFT-RESET joins, the reset is taken (R180): where the reply is
handed with room, and where a frame boundary gives the room for a held one. -/
def State.joinReply (s : State) (r : Reply) : State :=
  if r.softResetOk then (s.queueReply r).softReset else s.queueReply r

end Sys2Proof.Machine
end

