-- ==== Sys2Proof/Machine/Links.lean ====
section
/-! DEFINITION. The trunk links: receive framing (R155 to R158), the delivery of station and pool frames (R146 to R150, R159, R182, R183)
and the two transmitters (R161, R162). -/

namespace Sys2Proof.Machine

/-! ### Receive framing (R155, R156) -/

/-- A good frame at a receiver: its next state, and whether the frame is delivered (R155). In HUNT it counts toward the run only
where it follows the good frame before it directly. In SYNC it sets the bad-frame run to 0, also where the frame delivered is then dropped
for its kind or length: that the drop leaves the run "not changed" (R182, R183) is read as the run that R155 has left (DEDUCED, log
entry 35). -/
def Receiver.good (direct : Bool) (rx : Receiver) : Receiver × Bool :=
  if rx.sync then ({ rx with badRun := 0, seeking := false }, true)
  else if direct ∧ 1 ≤ rx.goodRun then ({ rx with sync := true, badRun := 0, goodRun := 0, seeking := false }, false)
  else ({ rx with goodRun := 1 }, false)

/-- A bad frame at a receiver: its next state, and whether it goes from SYNC to HUNT (R155). In SYNC it then searches for the next start
pattern. -/
def Receiver.bad (rx : Receiver) : Receiver × Bool :=
  if rx.sync then
    if rx.badRun < 3 then ({ rx with badRun := rx.badRun + 1, seeking := true }, false)
    else ({ rx with sync := false, badRun := 0, goodRun := 0, seeking := false }, true)
  else ({ rx with goodRun := 0 }, false)

/-- A receiver looks for a start pattern at every byte: in HUNT, and in SYNC after a bad frame (R155). -/
def Receiver.searching (rx : Receiver) : Bool := rx.seeking || !rx.sync

/-- What a receiver finds in the bytes it holds and those that have arrived (R155). -/
def Receiver.find (rx : Receiver) (bytes : List Byte) : Found := findFrame rx.searching false (rx.buf ++ bytes)

/-- The receiver of a link. -/
def State.rx (s : State) : Link → Receiver
  | .station => s.station.rx
  | .pool => s.pool.rx

/-- Set the receiver of a link. -/
def State.setRx (s : State) (link : Link) (rx : Receiver) : State :=
  match link with
  | .station => s.modStation (fun p => { p with rx := rx })
  | .pool => s.modPool (fun p => { p with rx := rx })

/-- A receiver goes from SYNC to HUNT (R155, R157): it is counted, and on the station link every take is force-stopped with cause
LINK and every review is stopped. -/
def State.huntEntered (s : State) (link : Link) : State :=
  let s1 := s.countPart (PartCounters.addHunts 1 link)
  match link with
  | .pool => s1
  | .station =>
    (List.finRange 48).foldl (fun s ch => (s.forceStopTake ch .link).deviceStopsReview ch .done .link) s1

/-- A bad frame is received: counted in SYNC, and perhaps the fourth in a row (R155, R163). -/
def State.badFrame (s : State) (link : Link) : State :=
  let out := (s.rx link).bad
  let s1 := s.setRx link out.1
  let s2 := if (s.rx link).sync then s1.countPart (PartCounters.addBad 1 link) else s1
  if out.2 then s2.huntEntered link else s2

/-- A delivered frame is dropped for its kind or payload length (R182, R183). The drop does not change the bad-frame run, which the good
frame has set to 0 (`Receiver.good`; DEDUCED, log entry 35). -/
def State.dropFrame (s : State) (link : Link) : State := s.countPart (PartCounters.addBad 1 link)

/-! ### Station frames (R146 to R150, R159) -/

/-- A frame is offered to the bypass queue (R150). -/
def State.forward (s : State) (f : BypassFrame) : State :=
  if s.pool.bypass.length < 64 then s.modPool (fun p => { p with bypass := p.bypass ++ [f] })
  else s.countPart (PartCounters.addBypassDrops 1)

/-- The Frame Classifier takes an AUDIO frame (R146, R147). -/
def State.classifyAudio (s : State) (b : Byte) (seq : Word16) (xs : List Sample) : State :=
  if s.mem.ctrl = .init then s
  else match chanOfByte b with
    | none => s.countPart (PartCounters.addBadChannel 1)
    | some ch =>
      match s.readEntry ch with
      | (s1, none) => s1.count ch (ChanCounters.addStray 1)
      | (s1, some st) =>
        match st.mode with
        | .compress => if s1.mem.ctrl = .ready then s1.captureFrame ch seq xs else s1.count ch (ChanCounters.addStray 1)
        | .bypass => s1.forward { chan := ch, isKey := false, payload := audioPayload seq xs }
        | .blocked => s1.count ch (ChanCounters.addStray 1)

/-- The Frame Classifier takes a KEY frame of a channel in 0..47 (R146, R147); a key that does not reach the Letter Controller is in
flight no more (R159). A key whose frame found the entry's parity wrong is marked as such (R148). -/
def State.classifyKey (s : State) (ch : Chan) (code : Byte) (count : Word16) : State :=
  if s.mem.ctrl = .init then s.landKey ch
  else
    let out := s.readEntry ch
    match out.2.map Settings.mode with
    | some .bypass =>
      (out.1.forward { chan := ch, isKey := true, payload := keyPayload code count.toNat }).landKey ch
    | _ => out.1.modWires (fun w => { w with keys := upd w.keys ch (fun q => q ++
        [{ code := code, count := count.toNat, spoilt := out.2.isNone && !s.table[ch].damaged }]) })

/-- A delivered KEY frame: the admission check against the channel's queued replies and keys in flight, then the Frame Classifier
(R146, R159). -/
def State.admitKey (s : State) (b : Byte) (code : Byte) (count : Word16) : State :=
  match chanOfByte b with
  | none => if s.mem.ctrl = .init then s else s.countPart (PartCounters.addBadChannel 1)
  | some ch =>
    if 16 ≤ s.station.replies[ch].length + s.station.inFlight[ch] then s.countPart (PartCounters.addKeyOverruns 1)
    else
      (s.modStation (fun p => { p with inFlight := upd p.inFlight ch (fun n => n + 1) })).classifyKey ch code count

/-- A station frame of any kind and payload is delivered, given its header and payload (R182). -/
def State.deliverStation (s : State) (body : List Byte) : State :=
  let bs := framePayload body
  if stationKindFits (frameKind body) bs.length then
    if frameKind body = 0x01#8 then
      s.classifyAudio (frameChannel body) (BitVec.ofNat 16 (fieldAt bs 0 2)) (samplesOfBytes (bs.drop 2))
    else s.admitKey (frameChannel body) (bs.getD 0 0) (BitVec.ofNat 16 (fieldAt bs 1 2))
  else s.dropFrame .station

/-! ### Pool frames (R158, R165, R183) -/

/-- A delivered management request joins the request queue, or is dropped and counted when four wait (R165). -/
def State.takeRequest (s : State) (payload : List Byte) : State :=
  if s.mgmt.queue.length < 4 then s.modMgmt (fun m => { m with queue := m.queue ++ [requestOfPayload payload] })
  else s.countPart (PartCounters.addMgmtDrops 1)

/-- The flow state is set (R158). -/
def State.setFlow (s : State) (f : Flow) : State := s.modPool (fun p => { p with flow := f })

/-- A pool frame of any kind and payload is delivered, given its header and payload; its channel byte is ignored (R182, R183). A GO that
ends a PAUSE lets the Drain Engine act in its event (R113). -/
def State.deliverPool (s : State) (body : List Byte) : State :=
  let bs := framePayload body
  if poolKindFits (frameKind body) bs.length then
    if frameKind body = 0x22#8 then s.setFlow .pause
    else if frameKind body = 0x23#8 then (if s.pool.flow = .go then s else (s.setFlow .go).drainActs)
    else s.takeRequest bs
  else s.dropFrame .pool

/-! ### The arrival of bytes (R153 to R156) -/

/-- A frame is delivered to what acts on it (R156). -/
def State.deliver (s : State) (link : Link) (body : List Byte) : State :=
  match link with
  | .station => s.deliverStation body
  | .pool => s.deliverPool body

/-- A good frame is received; in SYNC it is delivered (R155, R156). The one that brings the pool receiver back to SYNC lets the Drain Engine act in its
event (R113). -/
def State.goodFrame (s : State) (link : Link) (direct : Bool) (body : List Byte) : State :=
  let out := (s.rx link).good direct
  let s1 := s.setRx link out.1
  if out.2 then s1.deliver link body
  else match link with
    | .station => s1
    | .pool => s1.drainActs

/-- Bytes arrive at a receiver, which acts on the first frame it finds in what it holds then (R155): a good frame, or a bad one, after
which it goes on from the byte behind the bad frame's first byte. Where no frame is whole yet the bytes of one are kept, and a stray
byte in HUNT sets the good-frame run to 0. -/
def State.listen (s : State) (link : Link) (bytes : List Byte) : State :=
  match (s.rx link).find bytes with
  | .waits stray rest => s.setRx link { s.rx link with buf := rest, goodRun := if stray then 0 else (s.rx link).goodRun }
  | .good stray body rest => (s.setRx link { s.rx link with buf := rest }).goodFrame link (!stray) body
  | .bad _ rest => (s.setRx link { s.rx link with buf := rest }).badFrame link

/-- Bytes arrive at a receiver, which acts on every frame that is whole in what it holds then, in their order; `fuel` bounds their number. -/
def State.listenAll : Nat → State → Link → List Byte → State
  | 0, s, _, _ => s
  | fuel + 1, s, link, bytes =>
    match (s.rx link).find bytes with
    | .waits _ _ => s.listen link bytes
    | _ => (s.listen link bytes).listenAll fuel link []

/-- The last bytes before a loss of signal arrive at a receiver: every frame among them whose last byte has come is received, good or bad
(R154, R155), and what stays are the bytes of a frame that is not whole. A frame takes a byte at least. -/
def State.listenOut (s : State) (link : Link) (bytes : List Byte) : State :=
  s.listenAll (((s.rx link).buf ++ bytes).length + 1) link bytes

/-- A receiver loses its signal (R156): from SYNC it enters HUNT, and a frame being received, of which it holds bytes, is dropped and counted as
a bad frame; in HUNT the good-frame run is 0. -/
def State.loseSignal (s : State) (link : Link) : State :=
  let rx := s.rx link
  if rx.sync then
    let s1 := s.setRx link { sync := false, badRun := 0, goodRun := 0, signal := false, seeking := false, buf := [] }
    (if rx.buf.isEmpty then s1 else s1.countPart (PartCounters.addBad 1 link)).huntEntered link
  else s.setRx link { rx with goodRun := 0, signal := false, buf := [] }

/-- Bytes are on a link's line: they arrive where the line receiver reports a signal, and no frame is found where it reports none (R156). -/
def State.hear (s : State) (link : Link) (bytes : List Byte) (us : List Upset) : State :=
  if (s.rx link).signal then (s.upsets us).listen link bytes else s

/-! ### The transmitters (R161, R162) -/

/-- The station transmitter chooses its next frame (R161). -/
def StationPort.choose (p : StationPort) : StationPort :=
  match cyclicFrom p.replyPtr (fun ch => !p.replies[ch].isEmpty) with
  | some ch =>
    match p.replies[ch] with
    | r :: rest => { p with replies := upd p.replies ch (fun _ => rest), replyPtr := ch, sending := some (.keyReply ch r) }
    | [] => p
  | none =>
    match cyclicFrom p.audioPtr (fun ch => !p.audio[ch].isEmpty) with
    | some ch =>
      match p.audio[ch] with
      | f :: rest => { p with audio := upd p.audio ch (fun _ => rest), audioPtr := ch, sending := some (.reviewAudio ch f) }
      | [] => p
    | none => { p with sending := none }

/-- The owed notice of the highest precedence (R175). -/
def topNotice (ns : List Notice) : Option Notice :=
  ns.foldl (fun best n => match best with
    | none => some n
    | some b => if b.kind.precedence < n.kind.precedence then some n else some b) none

/-- The control queue has gained room: the Management Handler hands one frame, an owed notice before a held reply (R166, R175); with the
held OK of a SOFT-RESET the reset is taken in this event (R180). -/
def State.handControl (s : State) : State :=
  match topNotice s.mgmt.owed with
  | some n =>
    (s.modPool (fun p => { p with control := p.control ++ [.notice n] })).modMgmt (fun m => { m with owed := m.owed.erase n })
  | none =>
    match s.mgmt.heldReply with
    | some r => s.joinReply r
    | none => s

/-- The pool transmitter chooses its next frame (R162). -/
def State.poolBoundary (s : State) : State :=
  match s.pool.control with
  | f :: rest => (s.modPool (fun p => { p with control := rest, sending := some (.control f) })).handControl
  | [] =>
    match s.pool.bypass with
    | b :: rest => s.modPool (fun p => { p with bypass := rest, sending := some (.bypass b) })
    | [] =>
      match s.pool.slot with
      | some r =>
        if s.paused then s.modPool (fun p => { p with sending := none })
        else s.modPool (fun p => { p with slot := none, sending := some (.drain r) })
      | none => s.modPool (fun p => { p with sending := none })

/-! ### The commands -/

/-- FRAME_RECEIVED (R153 to R156): bytes come on a link, with what its line receiver reports. With a signal they arrive, and the receiver
acts on the frame it then finds. Without one it finds no frame: the bytes count for nothing, and the receiver stays as it is until
SIGNAL_LOSS, the step that R156 gives the loss, is taken (DESIGN CHOICE, log entry 14). -/
def execFrameReceived (link : Link) (line : Arrival) (us : List Upset) (s : State) : Host.Outcome State Fault Refusal :=
  .next (if line.signal then (s.setRx link { s.rx link with signal := true }).hear link line.bytes us else s)

/-- SIGNAL_LOSS (R154, R156): `bytes` are the last that came before the loss. A frame that is whole in them and in the bytes held is
received before the signal is lost; one that is not is a frame being received, which the loss drops. Where no signal is present none is lost
(log entry 3). -/
def execSignalLoss (link : Link) (bytes : List Byte) (us : List Upset) (s : State) : Host.Outcome State Fault Refusal :=
  .next (if (s.rx link).signal then ((s.upsets us).listenOut link bytes).loseSignal link else s)

/-- AUDIO (R146, R147, R182): the bytes of an AUDIO frame arrive; in SYNC it is delivered. -/
def execAudio (b : Byte) (seq : Word16) (xs : List Sample) (us : List Upset) (s : State) : Host.Outcome State Fault Refusal :=
  .next (s.hear .station (frameBytes 0x01#8 b (audioPayload seq xs)) us)

/-- KEY (R146, R159, R182): the bytes of a KEY frame arrive; in SYNC it is delivered. -/
def execKey (b code : Byte) (count : Word16) (us : List Upset) (s : State) : Host.Outcome State Fault Refusal :=
  .next (s.hear .station (frameBytes 0x02#8 b (keyPayload code count.toNat)) us)

/-- STATION_FRAME_DROPPED (R182): the bytes of a station frame of another kind or payload length arrive; in SYNC it is dropped and
counted. A frame that fits is no such frame (log entry 3). -/
def execStationFrameDropped (kind : Byte) (rest : Byte × List Byte) (s : State) : Host.Outcome State Fault Refusal :=
  .next (if stationKindFits kind rest.2.length then s else s.hear .station (frameBytes kind rest.1 rest.2) [])

/-- MGMT_REQUEST (R165, R183): the bytes of a MGMT-REQUEST frame arrive; in SYNC it is delivered. -/
def execMgmtRequest (payload : List Byte) (s : State) : Host.Outcome State Fault Refusal :=
  .next (s.hear .pool (frameBytes 0x21#8 0x00#8 payload) [])

/-- PAUSE (R158): the bytes of a PAUSE frame arrive; in SYNC it is delivered. -/
def execPause (s : State) : Host.Outcome State Fault Refusal := .next (s.hear .pool (frameBytes 0x22#8 0x00#8 []) [])

/-- GO (R158): the bytes of a GO frame arrive; in SYNC it is delivered. -/
def execGo (s : State) : Host.Outcome State Fault Refusal := .next (s.hear .pool (frameBytes 0x23#8 0x00#8 []) [])

/-- POOL_FRAME_DROPPED (R183): the bytes of a pool frame of another kind or payload length arrive; in SYNC it is dropped and counted. A
frame that fits is no such frame (log entry 3). -/
def execPoolFrameDropped (kind : Byte) (rest : Byte × List Byte) (s : State) : Host.Outcome State Fault Refusal :=
  .next (if poolKindFits kind rest.2.length then s else s.hear .pool (frameBytes kind rest.1 rest.2) [])

/-- STATION_FRAME_BOUNDARY (R161). A frame that becomes queued while idle bytes are sent makes a boundary too: the choice made there is
this command, queued behind the one that queued the frame (DESIGN CHOICE, log entry 33). -/
def execStationFrameBoundary (s : State) : Host.Outcome State Fault Refusal := .next (s.modStation StationPort.choose)

/-- POOL_FRAME_BOUNDARY (R162). A frame that becomes queued while idle bytes are sent makes a boundary too: the choice made there is this
command, queued behind the one that queued the frame (DESIGN CHOICE, log entry 33). -/
def execPoolFrameBoundary (s : State) : Host.Outcome State Fault Refusal := .next s.poolBoundary

end Sys2Proof.Machine
end

