-- ==== Sys2Proof/Machine/Mgmt.lean ====
section
/-! DEFINITION. The Management Handler: execution of the head request (R166) and the twenty kinds of request (10.3, R53, R112, R114, R138,
R141, R167 to R172, R176, R177, R179, R180). -/

namespace Sys2Proof.Machine

/-! ### Execution and the reply (R166) -/

/-- A reply is handed to the control queue: it joins where there is room, and is the held reply otherwise (R166). With the OK of a
SOFT-RESET that joins, the reset is taken (R180). -/
def State.handReply (s : State) (r : Reply) : State :=
  if s.pool.controlRoom then s.joinReply r else s.modMgmt (fun m => { m with heldReply := some r })

/-- What a request's own rule gives: the state, the status and the fields returned. -/
structure Executed where
  state  : State
  status : Status
  fields : List Byte

/-- A request refused with a status: nothing changes and no field is returned (11.3). -/
def Executed.refused (s : State) (status : Status) : Executed := { state := s, status := status, fields := [] }

/-- A request answered OK. -/
def Executed.done (s : State) (fields : List Byte) : Executed := { state := s, status := .ok, fields := fields }

/-- An execution can begin: no request is in execution and no reply is held (R166, R180). -/
def Management.idle (m : Management) : Bool := m.executing.isNone && m.heldReply.isNone

/-- The head of the request queue, where an execution can begin (R166). -/
def State.headRequest (s : State) : Option Request := if s.mgmt.idle then s.mgmt.queue.head? else none

/-- The head request leaves the queue (R165). -/
def State.popRequest (s : State) : State := s.modMgmt (fun m => { m with queue := m.queue.tail })

/-- The execution of a head request of a kind whose payload fits: STARTING in INIT, else the kind's own rule, which is given the request's
fields (R166). Where the head request is another one the step does not occur (log entry 3). -/
def State.execute (s : State) (kind : Byte) (act : List Byte → State → Executed) : State :=
  match s.headRequest with
  | none => s
  | some r =>
    if r.kind = kind ∧ r.fits then
      let s1 := s.popRequest
      if s1.mem.ctrl = .init then s1.handReply { kind := r.kind, tag := r.tag, status := .starting, fields := [] }
      else
        let out := act r.fields s1
        out.state.handReply { kind := r.kind, tag := r.tag, status := out.status, fields := out.fields }
    else s

/-! ### Channel entries (R138, R140, R141) -/

/-- The channel has a letter as the Channel Table sees it: a current letter, or one whose close it has not been told of yet (R140). -/
def State.channelLive (s : State) (ch : Chan) : Bool := s.ctxs[ch].current.isSome || decide (0 < s.wires.noLive[ch])

/-- READ-CHANNEL (R141). -/
def actReadChannel (bs : List Byte) (s : State) : Executed :=
  match chanField bs 0 with
  | none => .refused s .badField
  | some ch =>
    let e := s.table[ch]
    let current := match s.currentLetter ch with
      | some il => il.2.number
      | none => 0
    let last := match s.ctxs[ch].lastClosed with
      | some ln => match s.lastLetter ln.1 ln.2 with
        | some l => l.number
        | none => 0
      | none => 0
    .done s (byte1 (if e.damaged then 2 else 0) ++ settingsBytes e.inForce.settings ++
      optionalBytes 9 (e.pendingCopy.map (fun c => settingsBytes c.settings)) ++ byte4 current ++ byte4 last)

/-- WRITE-CHANNEL (R138). -/
def actWriteChannel (bs : List Byte) (s : State) : Executed :=
  match chanField bs 0, settingsField bs 1 with
  | some ch, some st =>
    if s.channelLive ch ∧ s.table[ch].damaged = false then
      .done (s.modEntry ch (fun e => { e with pendingCopy := some { settings := st, parityOk := true } })) (byte1 1)
    else
      .done (s.modEntry ch (fun _ => { damaged := false, inForce := { settings := st, parityOk := true }, pendingCopy := none })) (byte1 0)
  | _, _ => .refused s .badField

/-! ### Profiles (R53) -/

/-- READ-PROFILE (R53). -/
def actReadProfile (bs : List Byte) (s : State) : Executed :=
  match slotField bs 0 with
  | none => .refused s .badField
  | some k =>
    let p := s.profiles[k]
    .done s (byte1 p.status.toCode ++ byte2 p.generation ++ byte1 p.refs ++
      profileBytes (if p.status = .empty then zeroProfile else p.contents))

/-- WRITE-PROFILE (R51, R53). -/
def actWriteProfile (bs : List Byte) (s : State) : Executed :=
  match slotField bs 0 with
  | none => .refused s .badField
  | some k =>
    if 0 < s.profiles[k].refs then .refused s .inUse
    else if Profile.valid (profileField bs 1) then
      let g := advanceGeneration s.profiles[k].generation
      .done (s.modSlot k (fun p => { p with status := .ready, contents := profileField bs 1, generation := g, parityOk := true }))
        (byte2 g)
    else .refused s .badField

/-- CLEAR-PROFILE (R53). -/
def actClearProfile (bs : List Byte) (s : State) : Executed :=
  match slotField bs 0 with
  | none => .refused s .badField
  | some k =>
    if 0 < s.profiles[k].refs then .refused s .inUse
    else if s.profiles[k].status = .empty then .done s []
    else .done (s.modSlot k (fun p => { p with status := .empty, contents := zeroProfile, parityOk := true })) []

/-! ### Letters (R114, R168 to R170) -/

/-- The delivery context of a DRAINING or SUSPENDED letter (R101). -/
def State.progressOf (s : State) (i : LetterIx) (l : Letter) : Option Delivery :=
  match l.phase with
  | .draining _ => s.drain.delivery.filter (fun d => decide (d.letter = i))
  | .suspended _ => s.drain.suspended.filter (fun d => decide (d.letter = i))
  | _ => none

/-- READ-LETTER (R168). -/
def actReadLetter (bs : List Byte) (s : State) : Executed :=
  match s.findLetter (fieldAt bs 0 4) with
  | none => .refused s .notFound
  | some (i, l) =>
    .done s (byte1 i.val ++ byte1 l.phase.toCode ++ byte1 l.chan.val ++ byte3 l.author ++ byte1 (classCode l.cls) ++
      byte1 l.slot.val ++ byte2 l.generation ++ byte1 l.w ++ byte2 l.cap ++ byte2 l.maxDur ++ byte2 l.cursor ++ byte2 l.length ++
      byte2 l.list.length ++ byte2 (placeholders l.list) ++
      optionalBytes 5 (l.phase.take?.map (fun t => byte1 t.mode.toCode ++ byte2 t.start ++ byte2 t.len)) ++
      optionalBytes 4 (l.phase.ticket?.map byte4) ++
      optionalBytes 5 ((s.progressOf i l).map (fun d => byte2 d.pos ++ byte2 d.body ++ flagBytes d.abort)))

/-- An entry of a LIST-LETTERS reply (R169). -/
def entryBytes (il : LetterIx × Letter) : List Byte :=
  byte1 il.1.val ++ byte4 il.2.number ++ byte1 il.2.phase.toCode ++ byte1 il.2.chan.val ++ byte1 (classCode il.2.cls) ++
  byte2 il.2.length ++ byte4 (il.2.phase.ticket?.getD 0)

/-- The fields of a LIST-LETTERS reply: the total, the entries and the next start (R169). -/
def listFields (total : Nat) (entries : List (LetterIx × Letter)) (next : Option Nat) : List Byte :=
  byte1 total ++ entries.flatMap entryBytes ++ optionalBytes 1 (next.map byte1)

/-- The letters of the issue list, in issue order (R98). -/
def State.issueLetters (s : State) : List (LetterIx × Letter) :=
  s.drain.issue.filterMap (fun i => s.letters[i].map (fun l => (i, l)))

/-- The fields of a listing in index order (R169). -/
def State.listAll (s : State) (start : Nat) : List Byte :=
  let selected := s.heldLetters.filter (fun il => decide (start ≤ il.1.val))
  let entries := selected.take 16
  listFields s.heldLetters.length entries
    (if 16 < selected.length then entries.getLast?.map (fun il => il.1.val + 1) else none)

/-- The fields of a listing in issue order (R169). -/
def State.listQueue (s : State) (start : Nat) : List Byte :=
  let selected := s.issueLetters.drop start
  listFields s.issueLetters.length (selected.take 16) (if 16 < selected.length then some (start + 16) else none)

/-- LIST-LETTERS (R169). -/
def actListLetters (bs : List Byte) (s : State) : Executed :=
  if 95 < fieldAt bs 1 1 then .refused s .badField
  else if fieldAt bs 0 1 = 0 then .done s (s.listAll (fieldAt bs 1 1))
  else if fieldAt bs 0 1 = 1 then .done s (s.listQueue (fieldAt bs 1 1))
  else .refused s .badField

/-- FORCE-CLOSE (R170). -/
def actForceClose (bs : List Byte) (s : State) : Executed :=
  match chanField bs 0 with
  | none => .refused s .badField
  | some ch =>
    match s.currentLetter ch with
    | none => .refused s .notFound
    | some (_, l) =>
      let outcome := if l.phase.take?.isSome then 0 else if l.length = 0 then 2 else 1
      .done (s.entryStop ch) (byte4 l.number ++ byte1 outcome)

/-- ABORT-LETTER (R114): the pending abort of the DRAINING letter takes effect at once at a record boundary (R102, R115). -/
def actAbortLetter (bs : List Byte) (s : State) : Executed :=
  match s.findLetter (fieldAt bs 0 4) with
  | none => .refused s .notFound
  | some (i, l) =>
    match l.phase with
    | .queued _ => .done (((s.leaveIssue i).freeLetter i).countPart (PartCounters.addAbandoned 1)) []
    | .draining _ =>
      if s.mem.ctrl = .failed then .refused s .wrongState
      else .done (s.modDrain (fun d => { d with delivery := d.delivery.map (fun c => { c with abort := true }) })).drainActs []
    | .suspended _ =>
      if s.mem.ctrl = .failed then .refused s .wrongState
      else .done (s.modDrain (fun d => { d with suspended := d.suspended.map (fun c => { c with abort := true }) })) []
    | _ => .refused s .wrongState

/-! ### Faults, notices and counters (R176, R177, R179) -/

/-- The kinds, in kind order (11.3). -/
def FaultKind.all : List FaultKind := [.corrected, .uncorrected, .tableParity, .noResponse]

/-- Whether a CLEAR-FAULTS mask names a kind: bit 0 CORRECTED to bit 3 NO_RESPONSE (11.3). -/
def maskNames (mask : Nat) (k : FaultKind) : Bool := mask.testBit (k.toCode - 1)

/-- The four seen flags in the bit positions of the mask (11.3). -/
def FaultRecord.flags (r : FaultRecord) : Nat :=
  r.corrected.seen.toNat + 2 * r.uncorrected.seen.toNat + 4 * r.tableParity.seen.toNat + 8 * r.noResponse.seen.toNat

/-- READ-FAULTS (R176). -/
def actReadFaults (_ : List Byte) (s : State) : Executed :=
  let r := s.mgmt.faults
  .done s (byte1 r.flags ++ FaultKind.all.flatMap (fun k => byte4 (r.tally k).count) ++ contextBytes r.context)

/-- The Fault Record with the kinds of a mask cleared (R176). -/
def FaultRecord.clear (r : FaultRecord) (mask : Nat) : FaultRecord :=
  let r' := FaultKind.all.foldl (fun r k => if maskNames mask k then r.setTally k { seen := false, count := 0 } else r) r
  { r' with context := r.context.filter (fun c => !maskNames mask c.kind) }

/-- CLEAR-FAULTS (R176). -/
def actClearFaults (bs : List Byte) (s : State) : Executed :=
  if 16 ≤ fieldAt bs 0 1 then .refused s .badField
  else .done (s.modMgmt (fun m => { m with
    faults := m.faults.clear (fieldAt bs 0 1), owed := m.owed.filter (fun n => !maskNames (fieldAt bs 0 1) n.kind) })) []

/-- SET-NOTICES (R177). -/
def actSetNotices (bs : List Byte) (s : State) : Executed :=
  match levelOfCode (fieldAt bs 0 1) with
  | none => .refused s .badField
  | some lv => .done (s.modMgmt (fun m => { m with level := lv, owed := m.owed.filter (fun n => lv.announces n.kind) })) []

/-- A channel's 11 counters (11.3). -/
def ChanCounters.bytes (c : ChanCounters) : List Byte :=
  [c.accepted, c.stray, c.concealed, c.resyncs, c.overruns, c.coded, c.silent, c.satBlocks, c.clipBlocks, c.keysTaken,
   c.keysRefused].flatMap byte4

/-- The part's 12 counters (11.3). -/
def PartCounters.bytes (c : PartCounters) : List Byte :=
  [c.stationBad, c.stationHunts, c.poolBad, c.poolHunts, c.keyOverruns, c.reviewDrops, c.badChannel, c.bypassDrops, c.mgmtDrops,
   c.lettersDrained, c.lettersAbandoned, c.locsRetired].flatMap byte4

/-- The four gauges (R179). -/
def State.gauges (s : State) : List Nat :=
  [runsCount s.mem.free, s.mem.retired.length, s.freeSegs, s.heldLetters.length]

/-- READ-COUNTERS (R179, R184). -/
def actReadCounters (bs : List Byte) (s : State) : Executed :=
  match scopeOfCode (fieldAt bs 0 1) with
  | some (.channel ch) => .done s s.mgmt.chanCounters[ch].bytes
  | some .part => .done s (s.mgmt.part.bytes ++ s.gauges.flatMap byte4)
  | _ => .refused s .badField

/-- CLEAR-COUNTERS (R179). -/
def actClearCounters (bs : List Byte) (s : State) : Executed :=
  match scopeOfCode (fieldAt bs 0 1) with
  | some (.channel ch) => .done (s.count ch (fun _ => ChanCounters.zero)) []
  | some .part => .done (s.countPart (fun _ => PartCounters.zero)) []
  | some .all =>
    .done (s.modMgmt (fun m => { m with chanCounters := Vector.replicate 48 ChanCounters.zero, part := PartCounters.zero })) []
  | none => .refused s .badField

/-! ### The rest (R112, R167, R171, R172, R180) -/

/-- IDENTIFY (R167). -/
def actIdentify (_ : List Byte) (s : State) : Executed :=
  .done s (byte2 0x0A48 ++ byte1 1 ++ byte4 nLocations ++ byte1 48 ++ byte2 96 ++ byte2 nSegments ++ byte8 Config.serialNumber.toNat)

/-- HOLD-DRAIN (R112). -/
def actHoldDrain (_ : List Byte) (s : State) : Executed := .done (s.modDrain (fun d => { d with hold := true })) []

/-- RELEASE-DRAIN (R112): where HOLD was set it is cleared, and the Drain Engine acts at once. -/
def actReleaseDrain (_ : List Byte) (s : State) : Executed :=
  .done (if s.drain.hold then (s.modDrain (fun d => { d with hold := false })).drainActs else s) []

/-- SET-LETTER-BASE (R171). -/
def actSetLetterBase (bs : List Byte) (s : State) : Executed :=
  if fieldAt bs 0 4 = 0 then .refused s .badField
  else if s.heldLetters.isEmpty then .done (s.modMgmt (fun m => { m with letterCounter := fieldAt bs 0 4 })) []
  else .refused s .wrongState

/-- SET-PATROL (R172). -/
def actSetPatrol (bs : List Byte) (s : State) : Executed :=
  if fieldAt bs 0 1 = 0 then .done (s.modMgmt (fun m => { m with patrolOn := false })) []
  else if fieldAt bs 0 1 = 1 then .done (s.modMgmt (fun m => { m with patrolOn := true })) []
  else .refused s .badField

/-- SOFT-RESET is answered before it acts (R180). -/
def actSoftReset (_ : List Byte) (s : State) : Executed := .done s []

/-! ### The commands -/

/-- BAD_REQUEST (R166, R183): the head request's kind is unknown or its payload's length does not fit its kind. -/
def execBadRequest (s : State) : Host.Outcome State Fault Refusal :=
  .next (match s.headRequest with
    | none => s
    | some r =>
      if r.fits then s
      else s.popRequest.handReply { kind := r.kind, tag := r.tag, status := .badRequest, fields := [] })

/-- IDENTIFY (R167). -/
def execIdentify (s : State) : Host.Outcome State Fault Refusal := .next (s.execute 0x01#8 actIdentify)
/-- READ_CHANNEL (R141). -/
def execReadChannel (s : State) : Host.Outcome State Fault Refusal := .next (s.execute 0x02#8 actReadChannel)
/-- WRITE_CHANNEL (R138). -/
def execWriteChannel (s : State) : Host.Outcome State Fault Refusal := .next (s.execute 0x03#8 actWriteChannel)
/-- READ_PROFILE (R53). -/
def execReadProfile (s : State) : Host.Outcome State Fault Refusal := .next (s.execute 0x04#8 actReadProfile)
/-- WRITE_PROFILE (R53). -/
def execWriteProfile (s : State) : Host.Outcome State Fault Refusal := .next (s.execute 0x05#8 actWriteProfile)
/-- CLEAR_PROFILE (R53). -/
def execClearProfile (s : State) : Host.Outcome State Fault Refusal := .next (s.execute 0x06#8 actClearProfile)
/-- READ_LETTER (R168). -/
def execReadLetter (s : State) : Host.Outcome State Fault Refusal := .next (s.execute 0x07#8 actReadLetter)
/-- LIST_LETTERS (R169). -/
def execListLetters (s : State) : Host.Outcome State Fault Refusal := .next (s.execute 0x08#8 actListLetters)
/-- FORCE_CLOSE (R170). -/
def execForceClose (s : State) : Host.Outcome State Fault Refusal := .next (s.execute 0x09#8 actForceClose)
/-- ABORT_LETTER (R114). -/
def execAbortLetter (s : State) : Host.Outcome State Fault Refusal := .next (s.execute 0x0A#8 actAbortLetter)
/-- HOLD_DRAIN (R112). -/
def execHoldDrain (s : State) : Host.Outcome State Fault Refusal := .next (s.execute 0x0B#8 actHoldDrain)
/-- RELEASE_DRAIN (R112). -/
def execReleaseDrain (s : State) : Host.Outcome State Fault Refusal := .next (s.execute 0x0C#8 actReleaseDrain)
/-- READ_FAULTS (R176). -/
def execReadFaults (s : State) : Host.Outcome State Fault Refusal := .next (s.execute 0x0D#8 actReadFaults)
/-- CLEAR_FAULTS (R176). -/
def execClearFaults (s : State) : Host.Outcome State Fault Refusal := .next (s.execute 0x0E#8 actClearFaults)
/-- SET_NOTICES (R177). -/
def execSetNotices (s : State) : Host.Outcome State Fault Refusal := .next (s.execute 0x0F#8 actSetNotices)
/-- READ_COUNTERS (R179). -/
def execReadCounters (s : State) : Host.Outcome State Fault Refusal := .next (s.execute 0x10#8 actReadCounters)
/-- CLEAR_COUNTERS (R179). -/
def execClearCounters (s : State) : Host.Outcome State Fault Refusal := .next (s.execute 0x11#8 actClearCounters)
/-- SET_LETTER_BASE (R171). -/
def execSetLetterBase (s : State) : Host.Outcome State Fault Refusal := .next (s.execute 0x12#8 actSetLetterBase)
/-- SET_PATROL (R172). -/
def execSetPatrol (s : State) : Host.Outcome State Fault Refusal := .next (s.execute 0x13#8 actSetPatrol)
/-- SOFT_RESET (R180): its reply is formed and handed; where it joins the control queue at once, the reset is taken in this event. Otherwise
the reply is held, the rest of the device runs as before, and the reset is taken at the frame boundary at which the reply joins. -/
def execSoftReset (s : State) : Host.Outcome State Fault Refusal := .next (s.execute 0x14#8 actSoftReset)

/-- The OK of a SOFT-RESET joins the control queue in the Management Handler's next event, and the reset is taken with it (R166, R175, R180):
it is held and no notice is owed, so that the next frame boundary is its own; or no reply is held, a SOFT-RESET is at the head of the
queue and its reply will find room. -/
def State.resetDue (s : State) : Bool :=
  match s.mgmt.heldReply with
  | some r => r.softResetOk && s.mgmt.owed.isEmpty
  | none => (match s.headRequest with
    | some r => r.kind == 0x14#8 && r.fits
    | none => false) && decide (s.mem.ctrl ≠ .init) && s.pool.controlRoom

/-- The event in which a due reset is taken (R166, R180): a held reply joins where there is room, or at the frame boundary that gives it; with
none held the SOFT-RESET is executed. -/
def State.takeReset (s : State) : State :=
  match s.mgmt.heldReply with
  | some r => if s.pool.controlRoom then s.joinReply r else s.poolBoundary
  | none => s.execute 0x14#8 actSoftReset

/-- RESET_EVENT (R180, R181): the event in which the OK reply of a SOFT-RESET joins the control queue and the reset is taken. That event is one
of SOFT_RESET and POOL_FRAME_BOUNDARY, and the table lists RESET_EVENT beside them, so it is a second name of the one that is due, with
the errors that arose before it (DESIGN CHOICE, log entry 5). Where no reset is due it does not occur (log entry 3). -/
def execResetEvent (us : List Upset) (s : State) : Host.Outcome State Fault Refusal :=
  .next (if s.resetDue then (s.upsets us).takeReset else s)

end Sys2Proof.Machine
end

