-- ==== Sys2Proof/Machine/DrainFam.lean ====
section
/-! DEFINITION. The commands of the Drain Engine: drain starts, the records of a letter, the end of a delivery, suspension and aborts (R98 to
R118). -/

namespace Sys2Proof.Machine

/-! ### Starting a delivery (R103) -/

/-- DRAIN_START (R103): a drain start, where one can be taken. The events that make the last of its conditions hold take it themselves
(State.takeDrainStart; log entry 8). -/
def execDrainStart (s : State) : Host.Outcome State Fault Refusal := .next s.takeDrainStart

/-! ### Emission (R102) -/

/-- Emission is allowed (R102). -/
def State.emissionAllowed (s : State) : Bool :=
  s.drain.delivery.isSome && s.drainMayAct && s.pool.slot.isNone && s.drain.forming.isNone

/-- Something else is acted on at this record boundary before the record is formed: an abort of the suspended letter (R116), a pending
abort (R115), a due suspension, which does not hold back a LETTER-END (R109, R111). -/
def State.boundaryTaken (s : State) (d : Delivery) : Bool :=
  (match s.drain.suspended with
    | some x => x.abort
    | none => false) ||
  (if d.abort then decide (d.next ≠ .abandon) else decide (d.next ≠ .ending) && s.suspensionDue d)

/-- The delivery and its letter, where the record to form next is of a kind and may be formed now (R102). -/
def State.emitting (s : State) (next : NextRecord) : Option (Delivery × Letter) :=
  match s.drain.delivery with
  | none => none
  | some d =>
    if s.emissionAllowed ∧ d.next = next ∧ s.boundaryTaken d = false then s.letters[d.letter].map (fun l => (d, l)) else none

/-- A drain record is handed to the Pool Port (R102). -/
def State.handRecord (s : State) (r : DrainRecord) : State := s.modPool (fun p => { p with slot := some r })

/-! ### The walk (R105) -/

/-- The kind of record that comes at a walk place: a body record, or the end past the last segment (R105, R110). -/
def nextKind (list : List Segment) (seg : Nat) : NextRecord := if seg < list.length then .body else .ending

/-- The walk place after one handle, or after a whole segment of another kind (R105). -/
def nextPlace (list : List Segment) (seg handle : Nat) : Nat × Nat :=
  match list[seg]? with
  | some (.speech hs) => if handle + 1 < hs.length then (seg, handle + 1) else (seg + 1, 0)
  | _ => (seg + 1, 0)

/-- A delivery after a body record of `blocks` blocks has been handed (R105). -/
def Delivery.advance (d : Delivery) (list : List Segment) (blocks : Nat) (damaged : Bool) : Delivery :=
  let place := nextPlace list d.seg d.handle
  { d with seg := place.1, handle := place.2, pos := d.pos + blocks, body := d.body + 1,
           damaged := d.damaged + damaged.toNat, next := nextKind list place.1 }

/-- A body record is handed, and the walk moves on (R105). -/
def State.handBody (s : State) (d : Delivery) (l : Letter) (r : DrainRecord) (blocks : Nat) (damaged : Bool) : State :=
  (s.handRecord r).setDelivery (some (d.advance l.list blocks damaged))

/-- What the walk place holds. -/
inductive WalkPlace where
  | silence (d : Nat)
  | gap (c : GapCause)
  | damaged
  | block (loc : Nat)
deriving DecidableEq, Repr

/-- What the walk place of a delivery holds (R105). -/
def Delivery.place (d : Delivery) (l : Letter) : Option WalkPlace :=
  match l.list[d.seg]? with
  | some (.silence n) => some (.silence n)
  | some (.gap c) => some (.gap c)
  | some (.speech hs) => match hs[d.handle]? with
    | some (.loc n) => some (.block n)
    | some .placeholder => some .damaged
    | none => none
  | none => none

/-- LETTER_HEAD (R104). -/
def execLetterHead (s : State) : Host.Outcome State Fault Refusal :=
  .next (match s.emitting .head with
    | none => s
    | some (d, l) =>
      (s.handRecord (.letterHead l.number l.chan l.author l.cls l.slot l.generation l.w l.length l.list.length
        (l.phase.ticket?.getD 0))).setDelivery (some { d with next := nextKind l.list d.seg }))

/-- BODY_RECORD (R105): a SILENCE, a GAP, or a GAP with cause DAMAGED for a placeholder. -/
def execBodyRecord (s : State) : Host.Outcome State Fault Refusal :=
  .next (match s.emitting .body with
    | none => s
    | some (d, l) =>
      match d.place l with
      | some (.silence n) => s.handBody d l (.silence l.number d.pos n (playedDur l.cap n)) n false
      | some (.gap c) => s.handBody d l (.gap l.number d.pos c.toRecord) 1 false
      | some .damaged => s.handBody d l (.gap l.number d.pos .damaged) 1 true
      | _ => s)

/-- BLOCK (R106): the read of the walk place's location begins. -/
def execBlock (s : State) : Host.Outcome State Fault Refusal :=
  .next (match s.emitting .body with
    | none => s
    | some (d, l) =>
      match d.place l with
      | some (.block n) =>
        (s.modDrain (fun x => { x with forming := some d.pos })).request
          { claim := .drainRead { number := l.number, chan := l.chan, pos := d.pos }, loc := n }
      | _ => s)

/-- The read of a BLOCK record has completed (R106): the BLOCK, or a DAMAGED gap in its place, is handed whatever HOLD, PAUSE, an urgent
arrival or an abort did meanwhile; an abort or a suspension that waited for this record boundary is acted on in the same event, after
the handing (R102). -/
def State.formed (s : State) (r : ReadResult) (b : CodedBlock) : State :=
  match s.drain.delivery, s.drain.forming with
  | some d, some _ =>
    match s.letters[d.letter] with
    | none => s
    | some l =>
      let s1 := s.modDrain (fun x => { x with forming := none })
      (match r with
        | .uncorrectable => s1.handBody d l (.gap l.number d.pos .damaged) 1 true
        | _ => s1.handBody d l (.block l.number d.pos b) 1 false).drainActs
  | _, _ => s

/-- DRAIN_READ_COMPLETE (R106, R127 to R129). -/
def execDrainReadComplete (found : List BitError) (s : State) : Host.Outcome State Fault Refusal :=
  .next (match s.mem.granted with
    | some { claim := .drainRead ctx, loc := n } =>
      (s.completeRead n (some ctx) found).formed (s.readResult n found) (Memory.read s.mem.cells n).block
    | _ => s)

/-! ### The end of a delivery (R108, R110) -/

/-- LETTER_END (R107, R108). -/
def execLetterEnd (s : State) : Host.Outcome State Fault Refusal :=
  .next (match s.emitting .ending with
    | none => s
    | some (d, l) => (s.handRecord (.letterEnd l.number d.body d.pos d.damaged)).endDelivery d (PartCounters.addDrained 1))

/-- LETTER_RESUME (R110). -/
def execLetterResume (s : State) : Host.Outcome State Fault Refusal :=
  .next (match s.emitting .resume with
    | none => s
    | some (d, l) => (s.handRecord (.letterResume l.number d.pos d.body)).setDelivery (some { d with next := nextKind l.list d.seg }))

/-! ### Suspension and aborts (R109, R115, R116) -/

/-- SUSPENSION (R109): the switch, where a suspension is due and can be acted on (log entries 8 and 21). -/
def execSuspension (s : State) : Host.Outcome State Fault Refusal := .next s.takeSuspension

/-- PENDING_ABORT (R115): the pending abort of the DRAINING letter, where it can be acted on (log entry 8). -/
def execPendingAbort (s : State) : Host.Outcome State Fault Refusal := .next s.takeAbort

/-- LETTER_ABANDON (R115). -/
def execLetterAbandon (s : State) : Host.Outcome State Fault Refusal :=
  .next (match s.emitting .abandon with
    | none => s
    | some (d, l) => (s.handRecord (.letterAbandon l.number d.pos d.body)).endDelivery d (PartCounters.addAbandoned 1))

/-- SUSPENDED_ABANDON (R116). -/
def execSuspendedAbandon (s : State) : Host.Outcome State Fault Refusal :=
  .next (match s.drain.suspended with
    | none => s
    | some d =>
      if d.abort ∧ s.emissionAllowed then
        let s1 := s.handRecord (.letterAbandon d.number d.pos d.body)
        let s2 := (s1.leaveIssue d.letter).freeLetter d.letter
        (s2.modDrain (fun x => { x with suspended := none })).countPart (PartCounters.addAbandoned 1)
      else s)

end Sys2Proof.Machine
end

