-- ==== Sys2Proof/Machine/Keys.lean ====
section
/-! DEFINITION. The handset keys: their evaluation (R5, R6, R7, R9) and each key's own rule (R10 to R29). -/

namespace Sys2Proof.Machine

/-! ### RECORD (R10 to R12) -/

/-- The free segment records outnumber the letters in RECORDING and FINISHING (R10, R11, R38). -/
def State.segmentsAllow (s : State) : Bool := decide (s.reserve < s.freeSegs)

/-- The first check of R10 that fails, in order. -/
def State.openRefusal (s : State) (st : Settings) : Option KeyResult :=
  if s.freeRecord = none then some .full
  else if s.profiles[st.slot].status = .empty then some .notReady
  else if s.profiles[st.slot].status = .damaged then some .fault
  else if !s.segmentsAllow then some .full
  else if s.mem.free = [] then some .full
  else none

/-- The letter that a RECORD key opens, under the settings read, with the number given (R1, R10). -/
def State.newLetter (s : State) (ch : Chan) (st : Settings) (number : Nat) : Letter :=
  { number := number, chan := ch, author := st.author, cls := st.cls, slot := st.slot,
    generation := s.profiles[st.slot].generation, w := s.profiles[st.slot].contents.w, cap := s.profiles[st.slot].contents.cap,
    maxDur := st.maxDur, cursor := 0, list := [], phase := .opened }

/-- The letter number that the next letter takes (R3). -/
def State.nextNumber (s : State) : Nat := freshFrom s.numbersHeld 96 s.mgmt.letterCounter

/-- A RECORD key with no current letter opens a letter and starts its take, or is answered by the first check that fails (R10). -/
def State.openLetter (s : State) (ch : Chan) (st : Settings) (code : Byte) (mode : TakeMode) : State :=
  match s.openRefusal st, s.freeRecord with
  | none, some i =>
    let number := s.nextNumber
    let l := s.newLetter ch st number
    let s1 := (s.setLetter i (some l)).modSlot st.slot (fun p => { p with refs := p.refs + 1 })
    let s2 := (s1.modMgmt (fun m => { m with letterCounter := advance32 number })).modCtx ch (fun c => { c with current := some i })
    (s2.startTake ch i l mode).answer ch code .done l.view
  | some r, _ => s.answer ch code r LetterView.none
  | none, none => s.answer ch code .full LetterView.none

/-- The first check of R11 that fails, in order. -/
def State.takeRefusal (s : State) (l : Letter) (mode : TakeMode) : Option KeyResult :=
  if s.profiles[l.slot].status = .damaged then some .fault
  else if mode = .insert ∧ l.maxDur ≤ l.length then some .full
  else if mode = .overwrite ∧ l.maxDur ≤ l.cursor then some .full
  else if !s.segmentsAllow then some .full
  else if s.mem.free = [] then some .full
  else none

/-- RECORD-INSERT and RECORD-OVERWRITE (R10, R11). -/
def State.keyRecord (s : State) (ch : Chan) (st : Settings) (code : Byte) (mode : TakeMode) : State :=
  match s.currentLetter ch with
  | none => s.openLetter ch st code mode
  | some (i, l) =>
    match l.phase with
    | .opened =>
      match s.takeRefusal l mode with
      | none => (s.startTake ch i l mode).answer ch code .done l.view
      | some r => s.answer ch code r l.view
    | _ => s.answer ch code .refused l.view

/-! ### STOP and CANCEL-TAKE (R14 to R16) -/

/-- STOP (R14). In RECORDING its reply is owed at the commit. -/
def State.keyStop (s : State) (ch : Chan) (code : Byte) : State :=
  match s.currentLetter ch with
  | none => s.answer ch code .noLetter LetterView.none
  | some (i, l) =>
    match l.phase with
    | .recording t => (s.setPhase i (.finishing { t with stopOwed := true })).askCapture ch .finishing
    | .reviewing => ((s.stopReview ch).enterOpen ch i).answer ch code .done l.view
    | _ => s.answer ch code .done l.view

/-- A take's list is released: its locations are handed back in capture order and its segment records return (R16, R46). -/
def State.releaseTake (s : State) (t : Take) : State :=
  let s1 := s.handBackAll (listLocs t.list)
  { s1 with freeSegs := s1.freeSegs + t.list.length }

/-- CANCEL-TAKE (R16); in FINISHING it is answered by R5 before it comes here. -/
def State.keyCancel (s : State) (ch : Chan) (code : Byte) : State :=
  match s.currentLetter ch with
  | none => s.answer ch code .noLetter LetterView.none
  | some (i, l) =>
    match l.phase with
    | .recording t =>
      ((((s.askCapture ch .cancelled).releaseTake t).enterOpen ch i)).answer ch code .done l.view
    | _ => s.answer ch code .refused l.view

/-! ### The motion keys and REVIEW (R15, R21, R22) -/

/-- An implicit stop: the letter is FINISHING without an owed reply, and the key is in the held-key slot (R15). -/
def State.implicitStop (s : State) (ch : Chan) (i : LetterIx) (t : Take) (k : Key) : State :=
  ((s.setPhase i (.finishing t)).askCapture ch .finishing).modCtx ch (fun c => { c with held := some k })

/-- The cursor a motion key moves to (R21); none for a REWIND or FORWARD whose count is 0, which is refused. -/
def movedCursor (h : HandsetKey) (count cursor length : Nat) : Option Nat :=
  match h with
  | .rewind => if count = 0 then none else some (cursor - count)
  | .forward => if count = 0 then none else some (min (cursor + count) length)
  | .toStart => some 0
  | .toEnd => some length
  | _ => none

/-- The move itself, with the letter OPEN (R21). -/
def State.moveCursor (s : State) (ch : Chan) (i : LetterIx) (l : Letter) (h : HandsetKey) (k : Key) : State :=
  match movedCursor h k.count l.cursor l.length with
  | none => s.answer ch k.code .refused l.view
  | some c =>
    (s.modLetter i (fun l => { l with cursor := c })).answer ch k.code .done { cursor := c, length := l.length, number := l.number }

/-- REWIND n, FORWARD n, TO-START and TO-END (R15, R21). On a REVIEWING letter a REWIND or FORWARD of count 0 stops the review and is
answered REFUSED: R21 stops the review before the key acts and refuses a count of 0, while its sentence on REVIEWING and the table of
1.3 answer DONE (DEDUCED, log entry 29). -/
def State.keyMove (s : State) (ch : Chan) (h : HandsetKey) (k : Key) : State :=
  match s.currentLetter ch with
  | none => s.answer ch k.code .noLetter LetterView.none
  | some (i, l) =>
    match l.phase with
    | .recording t => s.implicitStop ch i t k
    | .reviewing => ((s.stopReview ch).enterOpen ch i).moveCursor ch i l h k
    | .opened => s.moveCursor ch i l h k
    | _ => s.answer ch k.code .refused l.view

/-- REVIEW (R22). -/
def State.keyReview (s : State) (ch : Chan) (code : Byte) : State :=
  match s.currentLetter ch with
  | none => s.answer ch code .noLetter LetterView.none
  | some (i, l) =>
    match l.phase with
    | .opened =>
      if s.profiles[l.slot].status = .damaged then s.answer ch code .fault l.view
      else if l.cursor = l.length then s.answer ch code .refused l.view
      else
        (((s.setPhase i .reviewing).modCtx ch (fun c => { c with idle := none })).startReview ch i l).answer ch code .done l.view
    | _ => s.answer ch code .refused l.view

/-! ### END-LETTER, class, RECALL and DISCARD (R24, R27 to R29) -/

/-- END-LETTER (R15, R24). -/
def State.keyEnd (s : State) (ch : Chan) (k : Key) : State :=
  match s.currentLetter ch with
  | none => s.answer ch k.code .noLetter LetterView.none
  | some (i, l) =>
    match l.phase with
    | .recording t => s.implicitStop ch i t k
    | .reviewing => ((s.stopReview ch).closeCurrent ch).answer ch k.code (closeResult l).1 (closeResult l).2
    | .opened => (s.closeCurrent ch).answer ch k.code (closeResult l).1 (closeResult l).2
    | _ => s.answer ch k.code .refused l.view

/-- A class change of a closed letter (R100): done where it is QUEUED, too late otherwise. A letter moved into URGENT is an urgent arrival, on
which the Drain Engine acts in the same event (R109); a request for the class that the letter has moves nothing. -/
def State.changeClass (s : State) (i : LetterIx) (l : Letter) (c : Priority) : State × Bool :=
  match l.phase with
  | .queued _ => (if l.cls = c then s else (s.modLetter i (fun l => { l with cls := c })).queueGrew, true)
  | _ => (s, false)

/-- URGENT-ON and URGENT-OFF (R27, R100). -/
def State.keyClass (s : State) (ch : Chan) (code : Byte) (c : Priority) : State :=
  match s.currentLetter ch with
  | some (i, l) => (s.modLetter i (fun l => { l with cls := c })).answer ch code .done l.view
  | none =>
    match s.ctxs[ch].lastClosed with
    | none => s.answer ch code .noLetter LetterView.none
    | some (i, number) =>
      match s.lastLetter i number with
      | none => s.answer ch code .tooLate (LetterView.freed number)
      | some l =>
        match s.changeClass i l c with
        | (s1, true) => s1.answer ch code .done l.view
        | (s1, false) => s1.answer ch code .tooLate l.view

/-- A withdrawal of a closed letter (R100): a QUEUED letter leaves the issue list and its ticket is dropped; too late otherwise. -/
def State.withdraw (s : State) (i : LetterIx) (l : Letter) : State × Bool :=
  match l.phase with
  | .queued _ => ((s.setPhase i .opened).modDrain (fun d => { d with issue := d.issue.erase i }), true)
  | _ => (s, false)

/-- RECALL (R28, R100). -/
def State.keyRecall (s : State) (ch : Chan) (code : Byte) : State :=
  match s.currentLetter ch with
  | some (_, l) => s.answer ch code .refused l.view
  | none =>
    match s.ctxs[ch].lastClosed with
    | none => s.answer ch code .noLetter LetterView.none
    | some (i, number) =>
      match s.lastLetter i number with
      | none => s.answer ch code .tooLate (LetterView.freed number)
      | some l =>
        match s.withdraw i l with
        | (s1, true) =>
          let s2 := s1.modLetter i (fun l => { l with cursor := l.length })
          let s3 := s2.modCtx ch (fun c => { c with current := some i, lastClosed := none })
          (s3.startIdle ch).answer ch code .done { cursor := l.length, length := l.length, number := l.number }
        | (s1, false) => s1.answer ch code .tooLate l.view

/-- DISCARD-ARM (R6, R29). -/
def State.keyArm (s : State) (ch : Chan) (code : Byte) : State :=
  match s.currentLetter ch with
  | none => s.answer ch code .noLetter LetterView.none
  | some (_, l) =>
    match l.phase with
    | .opened => (s.modCtx ch (fun c => { c with armed := true })).answer ch code .done l.view
    | _ => s.answer ch code .refused l.view

/-- DISCARD, with the discard-armed flag as the key found it (R29). -/
def State.keyDiscard (s : State) (ch : Chan) (code : Byte) (armed : Bool) : State :=
  match s.currentLetter ch with
  | none => s.answer ch code .noLetter LetterView.none
  | some (i, l) =>
    match l.phase, armed with
    | .opened, true =>
      (((s.dropCurrent ch).freeLetter i).tellNoLive ch).answer ch code .done (LetterView.freed l.number)
    | _, _ => s.answer ch code .disarmed l.view

/-! ### Evaluation (R5, R9) -/

/-- Step 4 of R9: the key's own rule, with the settings the read of step 1 delivered and the discard arm as the key found it. An
unknown code is REFUSED (R182). -/
def State.keyRule (s : State) (ch : Chan) (st : Settings) (armed : Bool) (k : Key) : State :=
  match keyOfCode k.code with
  | some .recordInsert => s.keyRecord ch st k.code .insert
  | some .recordOverwrite => s.keyRecord ch st k.code .overwrite
  | some .stop => s.keyStop ch k.code
  | some .cancelTake => s.keyCancel ch k.code
  | some .rewind => s.keyMove ch .rewind k
  | some .forward => s.keyMove ch .forward k
  | some .toStart => s.keyMove ch .toStart k
  | some .toEnd => s.keyMove ch .toEnd k
  | some .review => s.keyReview ch k.code
  | some .endLetter => s.keyEnd ch k
  | some .urgentOn => s.keyClass ch k.code .urgent
  | some .urgentOff => s.keyClass ch k.code .routine
  | some .recall => s.keyRecall ch k.code
  | some .discardArm => s.keyArm ch k.code
  | some .discard => s.keyDiscard ch k.code armed
  | none => s.answer ch k.code .refused (s.currentView ch)

/-- The idle timer of an OPEN current letter is restarted by a key (R7, R9). -/
def State.restartIdle (s : State) (ch : Chan) : State :=
  match s.currentLetter ch with
  | some (_, l) => match l.phase with
    | .opened => s.startIdle ch
    | _ => s
  | none => s

/-- A key in FINISHING (R5): CANCEL-TAKE is TOO_LATE, a key that finds the slot empty is held without a reply and keeps the discard
arm as it found it, and a key that finds it full is answered BUSY. -/
def State.keyInFinishing (s : State) (ch : Chan) (armed : Bool) (l : Letter) (k : Key) : State :=
  if keyOfCode k.code = some .cancelTake then s.answer ch k.code .tooLate l.view
  else if s.ctxs[ch].held = none then s.modCtx ch (fun c => { c with held := some k, armed := armed })
  else s.answer ch k.code .busy l.view

/-- A key the FAILED controller leaves its effect (R9, step 3). -/
def passesFailed (code : Byte) : Bool :=
  match keyOfCode code with
  | some h => h.movesOrEnds
  | none => false

/-- Step 3 of R9: under a FAILED controller a key is answered FAULT and has no effect, but for the motion keys and END-LETTER. What R117 says
of RECALL and class changes is a statement about the Drain Engine, whose halt does not stand in the way of the requests of R100; a key
decided here makes no such request (log entry 32). -/
def State.stopsFailed (s : State) (code : Byte) : Bool :=
  decide (s.mem.ctrl = .failed) && !passesFailed code

/-- Steps 2 to 4 of R9, for a key whose step 1 delivered the settings of a COMPRESS entry. -/
def State.keySteps (s : State) (ch : Chan) (st : Settings) (armed : Bool) (k : Key) : State :=
  let rest := if s.stopsFailed k.code then s.answer ch k.code .fault (s.currentView ch) else s.keyRule ch st armed k
  match s.currentLetter ch with
  | some (_, l) => match l.phase with
    | .finishing _ => s.keyInFinishing ch armed l k
    | _ => rest
  | none => rest

/-- The evaluation of a taken key, or of a held key being applied (R9): the discard arm is cleared (R6), step 1 reads the entry, the
idle timer of an OPEN letter restarts (R7), and steps 2 to 4 follow where the entry is GOOD and COMPRESS. The key of the frame that found the
entry's parity wrong is answered BLOCKED, even where the entry is GOOD again (R148). -/
def State.evalKey (s : State) (ch : Chan) (k : Key) : State :=
  let armed := s.ctxs[ch].armed
  let s0 := s.modCtx ch (fun c => { c with armed := false })
  match s0.readEntry ch with
  | (s1, some st) =>
    let s2 := s1.restartIdle ch
    if st.mode = .compress ∧ k.spoilt = false then s2.keySteps ch st armed k else s2.answer ch k.code .blocked (s2.currentView ch)
  | (s1, none) =>
    let s2 := s1.restartIdle ch
    s2.answer ch k.code .blocked (s2.currentView ch)

/-- The Letter Controller takes the oldest key in passage on a channel, where it is of the kind asked for (none: an unknown code): it
counts in keys-taken, once, and is evaluated (R9). With no such key in passage the step does not occur (log entry 3). -/
def State.takeKey (s : State) (ch : Chan) (us : List Upset) (h : Option HandsetKey) : State :=
  match s.wires.keys[ch] with
  | [] => s
  | k :: rest =>
    if keyOfCode k.code = h then
      (((s.upsets us).modWires (fun w => { w with keys := upd w.keys ch (fun _ => rest) })).count ch (ChanCounters.addTaken 1)).evalKey ch k
    else s

/-! ### The commands -/

/-- RECORD_INSERT (R10, R11). -/
def execRecordInsert (ch : Chan) (us : List Upset) (s : State) : Host.Outcome State Fault Refusal :=
  .next (s.takeKey ch us (some .recordInsert))

/-- RECORD_OVERWRITE (R10, R11). -/
def execRecordOverwrite (ch : Chan) (us : List Upset) (s : State) : Host.Outcome State Fault Refusal :=
  .next (s.takeKey ch us (some .recordOverwrite))

/-- STOP (R14). -/
def execStop (ch : Chan) (us : List Upset) (s : State) : Host.Outcome State Fault Refusal :=
  .next (s.takeKey ch us (some .stop))

/-- CANCEL_TAKE (R16). -/
def execCancelTake (ch : Chan) (us : List Upset) (s : State) : Host.Outcome State Fault Refusal :=
  .next (s.takeKey ch us (some .cancelTake))

/-- REWIND (R21). -/
def execRewind (ch : Chan) (us : List Upset) (s : State) : Host.Outcome State Fault Refusal :=
  .next (s.takeKey ch us (some .rewind))

/-- FORWARD (R21). -/
def execForward (ch : Chan) (us : List Upset) (s : State) : Host.Outcome State Fault Refusal :=
  .next (s.takeKey ch us (some .forward))

/-- TO_START (R21). -/
def execToStart (ch : Chan) (us : List Upset) (s : State) : Host.Outcome State Fault Refusal :=
  .next (s.takeKey ch us (some .toStart))

/-- TO_END (R21). -/
def execToEnd (ch : Chan) (us : List Upset) (s : State) : Host.Outcome State Fault Refusal :=
  .next (s.takeKey ch us (some .toEnd))

/-- REVIEW (R22). -/
def execReview (ch : Chan) (us : List Upset) (s : State) : Host.Outcome State Fault Refusal :=
  .next (s.takeKey ch us (some .review))

/-- END_LETTER (R24). -/
def execEndLetter (ch : Chan) (us : List Upset) (s : State) : Host.Outcome State Fault Refusal :=
  .next (s.takeKey ch us (some .endLetter))

/-- URGENT_ON (R27). -/
def execUrgentOn (ch : Chan) (us : List Upset) (s : State) : Host.Outcome State Fault Refusal :=
  .next (s.takeKey ch us (some .urgentOn))

/-- URGENT_OFF (R27). -/
def execUrgentOff (ch : Chan) (us : List Upset) (s : State) : Host.Outcome State Fault Refusal :=
  .next (s.takeKey ch us (some .urgentOff))

/-- RECALL (R28). -/
def execRecall (ch : Chan) (us : List Upset) (s : State) : Host.Outcome State Fault Refusal :=
  .next (s.takeKey ch us (some .recall))

/-- DISCARD_ARM (R6). -/
def execDiscardArm (ch : Chan) (us : List Upset) (s : State) : Host.Outcome State Fault Refusal :=
  .next (s.takeKey ch us (some .discardArm))

/-- DISCARD (R29). -/
def execDiscard (ch : Chan) (us : List Upset) (s : State) : Host.Outcome State Fault Refusal :=
  .next (s.takeKey ch us (some .discard))

/-- UNKNOWN_KEY_CODE (R182). -/
def execUnknownKeyCode (ch : Chan) (us : List Upset) (s : State) : Host.Outcome State Fault Refusal :=
  .next (s.takeKey ch us none)

end Sys2Proof.Machine
end

