-- ==== Sys2Proof/Machine/Reports.lean ====
section
/-! DEFINITION. What the Letter Controller, the Channel Table, Capture and the Fault Record take from other blocks (R13, R17, R19, R20, R47,
R71, R129, R139, R174), and the two timers of a letter at rest and under review (R7, R93). -/

namespace Sys2Proof.Machine

/-! ### Block outcomes (R13, R36, R38, R39) -/

/-- The oldest report of the Coder on a channel leaves (R180). -/
def State.popReport (s : State) (ch : Chan) : State := s.modWires (fun w => { w with reports := upd w.reports ch List.tail })

/-- The channel's current letter and its pending take, where the take carries the serial (R13). -/
def State.takeOf (s : State) (ch : Chan) (serial : Nat) : Option (LetterIx × Letter × Take) :=
  match s.currentLetter ch with
  | none => none
  | some (i, l) =>
    match l.phase.take? with
    | none => none
    | some t => if t.serial = serial then some (i, l, t) else none

/-- A coded outcome's location is handed back (R13, R39). -/
def State.dropOutcome (s : State) (o : BlockOutcome) : State :=
  match o with
  | .coded n => s.handBack n
  | _ => s

/-- A phase with its pending take replaced. -/
def Phase.setTake (t : Take) : Phase → Phase
  | .recording _ => .recording t
  | .finishing _ => .finishing t
  | p => p

/-- An outcome is refused: its location is handed back, 4 is added to the stray audio and the take is force-stopped (R13, R39). -/
def State.refuseOutcome (s : State) (ch : Chan) (o : BlockOutcome) (c : StopCause) : State :=
  ((s.dropOutcome o).count ch (ChanCounters.addStray 4)).forceStopTake ch c

/-- An outcome is appended to the take list, drawing a record where it needs one (R36). -/
def State.appendTo (s : State) (i : LetterIx) (t : Take) (o : BlockOutcome) : State :=
  { s.modLetter i (fun l => { l with phase := l.phase.setTake { t with list := appendOutcome t.list o } }) with
    freeSegs := if drawsRecord t.list o then s.freeSegs - 1 else s.freeSegs }

/-- The Letter Controller takes a block outcome (R13, R38, R39). -/
def State.takeOutcome (s : State) (ch : Chan) (serial : Nat) (o : BlockOutcome) : State :=
  match s.takeOf ch serial with
  | none => s.dropOutcome o
  | some (i, l, t) =>
    if l.maxDur < splicedLength t.mode l.length t.start (t.len + 1) then s.refuseOutcome ch o .length
    else if drawsRecord t.list o ∧ s.freeSegs ≤ s.reserve then s.refuseOutcome ch o .resource
    else s.appendTo i t o

/-- BLOCK_OUTCOME (R13): the channel's oldest report, where it is a block outcome. -/
def execBlockOutcome (ch : Chan) (s : State) : Host.Outcome State Fault Refusal :=
  .next (match s.wires.reports[ch].head? with
    | some (.outcome serial o) => (s.popReport ch).takeOutcome ch serial o
    | _ => s)

/-! ### The end of a take (R17, R40) -/

/-- The splice of a take into its letter, which enters OPEN with the cursor at c + L; the locations an OVERWRITE removes are handed
back and the segment records come out even (R17, R31, R40 to R45). -/
def State.splice (s : State) (i : LetterIx) (l : Letter) (t : Take) : State :=
  let list := spliceList t.mode t.start t.list l.list
  let s1 := s.handBackAll (removedLocs t.mode t.start t.list l.list)
  { s1.modLetter i (fun l => { l with list := list, cursor := t.start + t.len, phase := .opened }) with
    freeSegs := s1.freeSegs + l.list.length + t.list.length - list.length }

/-- The letter is still the channel's current letter. -/
def State.isCurrent (s : State) (ch : Chan) (i : LetterIx) : Bool := decide (s.ctxs[ch].current = some i)

/-- A held key is applied (R5, R17). -/
def State.applyHeld (s : State) (ch : Chan) : State :=
  match s.ctxs[ch].held with
  | none => s
  | some k => (s.modCtx ch (fun c => { c with held := none })).evalKey ch k

/-- The commit of a take (R17): splice, OPEN, the owed STOP reply, the close at commit, the held key. -/
def State.commit (s : State) (ch : Chan) (i : LetterIx) (l : Letter) (t : Take) : State :=
  let s1 := (s.splice i l t).startIdle ch
  let view : LetterView :=
    { cursor := t.start + t.len, length := listDur (spliceList t.mode t.start t.list l.list), number := l.number }
  let s2 := if t.stopOwed then s1.answer ch HandsetKey.stop.code .done view else s1
  let s3 := if t.closeAtCommit ∧ s2.isCurrent ch i then s2.closeCurrent ch else s2
  s3.applyHeld ch

/-- The Letter Controller takes an end-of-take report (R17); one that is not for the current letter's FINISHING take has no effect. -/
def State.takeEnd (s : State) (ch : Chan) (serial : Nat) : State :=
  match s.takeOf ch serial with
  | none => s
  | some (i, l, t) =>
    match l.phase with
    | .finishing _ => s.commit ch i l t
    | _ => s

/-- END_OF_TAKE (R17): the channel's oldest report, where it is the end of a take. -/
def execEndOfTake (ch : Chan) (us : List Upset) (s : State) : Host.Outcome State Fault Refusal :=
  .next (match s.wires.reports[ch].head? with
    | some (.endOfTake serial) => ((s.upsets us).popReport ch).takeEnd ch serial
    | _ => s)

/-! ### Force-stops and device stops of reviews (R18 to R20) -/

/-- A notice is still true: the slot is DAMAGED, or the controller FAILED. -/
def State.noticeHolds (s : State) : DeviceNotice → Bool
  | .profile k => decide (s.profiles[k].status = .damaged)
  | .failed => decide (s.mem.ctrl = .failed)

/-- A notice reaches a letter: one bound to the damaged slot, or any (R18, R20). -/
def DeviceNotice.reaches (n : DeviceNotice) (l : Letter) : Bool :=
  match n with
  | .profile k => decide (l.slot = k)
  | .failed => true

/-- The cause of a notice (R18, R20). -/
def DeviceNotice.cause : DeviceNotice → StopCause
  | .profile _ => .profile
  | .failed => .failed

/-- Act on every channel, in ascending order, whose current letter a notice reaches. -/
def State.onReached (s : State) (n : DeviceNotice) (f : Chan → State → State) : State :=
  if s.noticeHolds n then
    (List.finRange 48).foldl (fun s ch => match s.currentLetter ch with
      | some il => if DeviceNotice.reaches n il.2 then f ch s else s
      | none => s) s
  else s

/-- A notice force-stops the takes it reaches (R18, R19). -/
def State.stopTakes (s : State) (n : DeviceNotice) : State := s.onReached n (fun ch s => s.forceStopTake ch (DeviceNotice.cause n))

/-- A notice stops the reviews it reaches (R20). -/
def State.stopReviews (s : State) (n : DeviceNotice) : State := s.onReached n (fun ch s => s.deviceStopsReview ch .fault (DeviceNotice.cause n))

/-- FORCE_STOP (R19): the Coder's MEMORY report at the head of a channel's reports, or the oldest notice, where it is the one named. -/
def execForceStop (src : StopSource) (s : State) : Host.Outcome State Fault Refusal :=
  .next (match src with
    | .memory ch =>
      match s.wires.reports[ch].head? with
      | some (.memoryStop serial) =>
        let s1 := s.popReport ch
        if (s1.takeOf ch serial).isSome then s1.forceStopTake ch .memory else s1
      | _ => s
    | .notice n =>
      if s.wires.takeStops.head? = some n then
        (s.modWires (fun w => { w with takeStops := w.takeStops.tail })).stopTakes n
      else s)

/-- REVIEW_STOPPED_BY_THE_DEVICE (R20): the oldest notice for reviews, where it is the one named. -/
def execReviewStoppedByTheDevice (n : DeviceNotice) (us : List Upset) (s : State) : Host.Outcome State Fault Refusal :=
  .next (if s.wires.reviewStops.head? = some n then
      ((s.upsets us).modWires (fun w => { w with reviewStops := w.reviewStops.tail })).stopReviews n
    else s)

/-! ### Conversion of a handle (R47, R48, R129) -/

/-- The letter whose committed list, or whose take list, holds a location, with the handle's timeline position (R47). -/
def Letter.holds (l : Letter) (n : Nat) : Option Nat :=
  match handlePos n 0 l.list with
  | some p => some p
  | none => match l.phase.take? with
    | some t => handlePos n t.start t.list
    | none => none

/-- A letter with the handle of a location converted, in its committed list and its take list (R47). -/
def Letter.convert (l : Letter) (n : Nat) : Letter :=
  { l with list := convertHandle n l.list,
           phase := match l.phase.take? with
             | some t => l.phase.setTake { t with list := convertHandle n t.list }
             | none => l.phase }

/-- The letter that holds a location (R47). -/
def State.holder (s : State) (n : Nat) : Option (LetterIx × Letter × Nat) :=
  s.heldLetters.findSome? (fun il => (il.2.holds n).map (fun p => (il.1, il.2, p)))

/-- An ALLOCATED location passes to the retired list; a location of another status stays where it is (R47, R126, R129). -/
def State.retire (s : State) (n : Nat) : State :=
  match s.mem.status n with
  | .allocated _ =>
    (s.modMem (fun m => { m with held := m.held.filter (fun h => h.loc != n), retired := m.retired ++ [n] })).countPart
      (PartCounters.addRetired 1)
  | _ => s

/-- The Letter Controller takes a request to convert the handle of a location, and answers it; the location of a handle that it converts
passes at the same time to the retired list (R47, R48; log entry 36). -/
def State.convert (s : State) (n : Nat) : State :=
  match s.holder n with
  | none => s.modWires (fun w => { w with convAnswers := w.convAnswers ++ [(n, none)] })
  | some (i, l, p) =>
    ((s.retire n).modLetter i (fun l => l.convert n)).modWires (fun w => { w with
      convAnswers := w.convAnswers ++ [(n, some { number := l.number, chan := l.chan, pos := p })] })

/-- CONVERSION_REQUEST (R47): the oldest request. -/
def execConversionRequest (s : State) : Host.Outcome State Fault Refusal :=
  .next (match s.wires.convRequests with
    | [] => s
    | n :: rest => (s.modWires (fun w => { w with convRequests := rest })).convert n)

/-- The Block Memory Controller takes an answer (R129). Where it says that the handle was converted, an ALLOCATED location is retired; one that
passed to the retired list with the conversion stays there (R47; DEDUCED, log entry 36). -/
def State.takeAnswer (s : State) (n : Nat) (a : Option ReadContext) : State :=
  match a with
  | some c => (s.retire n).detect (locationContext .uncorrected n (some c))
  | none => s.detect (locationContext .uncorrected n none)

/-- CONVERSION_ANSWER (R129): the oldest answer. -/
def execConversionAnswer (s : State) : Host.Outcome State Fault Refusal :=
  .next (match s.wires.convAnswers with
    | [] => s
    | a :: rest => (s.modWires (fun w => { w with convAnswers := rest })).takeAnswer a.1 a.2)

/-! ### Detections (R173, R174) -/

/-- A detection comes from a block (R173, table of kinds). -/
def Detector.made (d : Detector) (c : FaultContext) : Bool :=
  match d, c.place with
  | .memory, .location _ => true
  | .profileTable, .profileSlot _ => true
  | .channelTable, .channelEntry _ _ => true
  | _, _ => false

/-- DETECTION (R174): the oldest detection of the block named. -/
def execDetection (src : Detector) (s : State) : Host.Outcome State Fault Refusal :=
  .next (match s.wires.detections.find? (Detector.made src) with
    | none => s
    | some c => (s.modWires (fun w => { w with detections := w.detections.erase c })).recordDetection c)

/-! ### The Channel Table and Capture (R71, R139) -/

/-- NO_LIVE_LETTER_NOTICE (R139): the pending copy is applied. A notice that is taken after the channel has a new or a recalled current
letter applies the copy under that letter: R139 names no condition on the letter, while R142 says that a write waits for a live one
(DEDUCED, log entry 20). -/
def execNoLiveLetterNotice (ch : Chan) (us : List Upset) (s : State) : Host.Outcome State Fault Refusal :=
  .next (if 0 < s.wires.noLive[ch] then
      ((s.upsets us).modWires (fun w => { w with noLive := upd w.noLive ch (fun n => n - 1) })).takePendingCopy ch
    else s)

/-- The oldest request to a channel's capture ring leaves. -/
def State.popCapture (s : State) (ch : Chan) : State :=
  s.modWires (fun w => { w with captureRequests := upd w.captureRequests ch List.tail })

/-- TAKE_FINISHING (R71, R77): the oldest request to the channel's ring, where it is a take finishing without discard. -/
def execTakeFinishing (ch : Chan) (s : State) : Host.Outcome State Fault Refusal :=
  .next (if s.wires.captureRequests[ch].head? = some .finishing then (s.popCapture ch).finishCapture ch else s)

/-- RING_EMPTYING (R71, R78): the oldest request to the channel's ring, where it is a take finishing with discard or a cancel. -/
def execRingEmptying (ch : Chan) (s : State) : Host.Outcome State Fault Refusal :=
  .next (match s.wires.captureRequests[ch].head? with
    | some .finishingDiscard => (s.popCapture ch).discardCapture ch
    | some .cancelled => (s.popCapture ch).cancelCapture ch
    | _ => s)

/-! ### Timers (R7, R93, R95) -/

/-- IDLE_EXPIRY (R7): the idle timer of an OPEN current letter expires. -/
def execIdleExpiry (ch : Chan) (s : State) : Host.Outcome State Fault Refusal :=
  .next (match s.currentLetter ch with
    | some (_, l) =>
      if l.phase = .opened ∧ s.ctxs[ch].idle.isSome then
        (s.closeCurrent ch).tell ch codeTimeout (closeResult l).1 none (closeResult l).2
      else s
    | none => s)

/-- A review reaches its end (R23, R95): the context is IDLE, the letter OPEN, its idle timer starts and the REVIEW reply goes out. -/
def State.endReview (s : State) (ch : Chan) (i : LetterIx) (l : Letter) : State :=
  ((s.stopReview ch).enterOpen ch i).tell ch HandsetKey.review.code .done none l.view

/-- A pace expiry with no frame due: late, and the timer stops (R93). -/
def State.markLate (s : State) (ch : Chan) : State := s.modReview ch (fun r => { r with late := true, pace := false })

/-- What a pace expiry finds (R93, R95): a frame to send, the end of the review, or nothing to send yet. -/
def State.paceStep (s : State) (ch : Chan) (r : Review) : State :=
  match r.play with
  | none => s.markLate ch
  | some p =>
    if p.sent < 4 then s.paceFrame ch p.sent
    else match s.letters[r.letter] with
      | some l => if l.phase = .reviewing ∧ l.cursor = l.length ∧ r.next = none then s.endReview ch r.letter l else s.markLate ch
      | none => s.markLate ch

/-- PACE_EXPIRY (R93 to R95): the pace timer of a reviewing channel expires. -/
def execPaceExpiry (ch : Chan) (us : List Upset) (s : State) : Host.Outcome State Fault Refusal :=
  .next (match s.player[ch].review with
    | some r => if r.pace then (s.upsets us).paceStep ch r else s
    | none => s)

end Sys2Proof.Machine
end

