-- ==== Sys2Proof/Machine/Dispatch.lean ====
section
/-! DEFINITION. The meaning of every command: one arm for each constructor. -/

namespace Sys2Proof.Machine

def exec (i : Instr) (s : State) : Host.Outcome State Fault Refusal :=
  match i with
  | .powerOn => Sys2Proof.Machine.execPowerOn s
  | .frameReceived link line us => Sys2Proof.Machine.execFrameReceived link line us s
  | .signalLoss link bytes us => Sys2Proof.Machine.execSignalLoss link bytes us s
  | .audio ch seq samples us => Sys2Proof.Machine.execAudio ch seq samples us s
  | .key ch code count us => Sys2Proof.Machine.execKey ch code count us s
  | .stationFrameDropped kind rest => Sys2Proof.Machine.execStationFrameDropped kind rest s
  | .recordInsert ch us => Sys2Proof.Machine.execRecordInsert ch us s
  | .recordOverwrite ch us => Sys2Proof.Machine.execRecordOverwrite ch us s
  | .stop ch us => Sys2Proof.Machine.execStop ch us s
  | .cancelTake ch us => Sys2Proof.Machine.execCancelTake ch us s
  | .rewind ch us => Sys2Proof.Machine.execRewind ch us s
  | .forward ch us => Sys2Proof.Machine.execForward ch us s
  | .toStart ch us => Sys2Proof.Machine.execToStart ch us s
  | .toEnd ch us => Sys2Proof.Machine.execToEnd ch us s
  | .review ch us => Sys2Proof.Machine.execReview ch us s
  | .endLetter ch us => Sys2Proof.Machine.execEndLetter ch us s
  | .urgentOn ch us => Sys2Proof.Machine.execUrgentOn ch us s
  | .urgentOff ch us => Sys2Proof.Machine.execUrgentOff ch us s
  | .recall ch us => Sys2Proof.Machine.execRecall ch us s
  | .discardArm ch us => Sys2Proof.Machine.execDiscardArm ch us s
  | .discard ch us => Sys2Proof.Machine.execDiscard ch us s
  | .unknownKeyCode ch us => Sys2Proof.Machine.execUnknownKeyCode ch us s
  | .mgmtRequest payload => Sys2Proof.Machine.execMgmtRequest payload s
  | .pause => Sys2Proof.Machine.execPause s
  | .go => Sys2Proof.Machine.execGo s
  | .poolFrameDropped kind rest => Sys2Proof.Machine.execPoolFrameDropped kind rest s
  | .badRequest => Sys2Proof.Machine.execBadRequest s
  | .identify => Sys2Proof.Machine.execIdentify s
  | .readChannel => Sys2Proof.Machine.execReadChannel s
  | .writeChannel => Sys2Proof.Machine.execWriteChannel s
  | .readProfile => Sys2Proof.Machine.execReadProfile s
  | .writeProfile => Sys2Proof.Machine.execWriteProfile s
  | .clearProfile => Sys2Proof.Machine.execClearProfile s
  | .readLetter => Sys2Proof.Machine.execReadLetter s
  | .listLetters => Sys2Proof.Machine.execListLetters s
  | .forceClose => Sys2Proof.Machine.execForceClose s
  | .abortLetter => Sys2Proof.Machine.execAbortLetter s
  | .holdDrain => Sys2Proof.Machine.execHoldDrain s
  | .releaseDrain => Sys2Proof.Machine.execReleaseDrain s
  | .readFaults => Sys2Proof.Machine.execReadFaults s
  | .clearFaults => Sys2Proof.Machine.execClearFaults s
  | .setNotices => Sys2Proof.Machine.execSetNotices s
  | .readCounters => Sys2Proof.Machine.execReadCounters s
  | .clearCounters => Sys2Proof.Machine.execClearCounters s
  | .setLetterBase => Sys2Proof.Machine.execSetLetterBase s
  | .setPatrol => Sys2Proof.Machine.execSetPatrol s
  | .softReset => Sys2Proof.Machine.execSoftReset s
  | .resetEvent us => Sys2Proof.Machine.execResetEvent us s
  | .idleExpiry ch => Sys2Proof.Machine.execIdleExpiry ch s
  | .paceExpiry ch us => Sys2Proof.Machine.execPaceExpiry ch us s
  | .patrolVisit => Sys2Proof.Machine.execPatrolVisit s
  | .accessTimeout => Sys2Proof.Machine.execAccessTimeout s
  | .arbiterGrant => Sys2Proof.Machine.execArbiterGrant s
  | .initWriteComplete => Sys2Proof.Machine.execInitWriteComplete s
  | .coderWriteComplete => Sys2Proof.Machine.execCoderWriteComplete s
  | .playerReadComplete found us => Sys2Proof.Machine.execPlayerReadComplete found us s
  | .drainReadComplete found => Sys2Proof.Machine.execDrainReadComplete found s
  | .patrolReadComplete found => Sys2Proof.Machine.execPatrolReadComplete found s
  | .coderService us => Sys2Proof.Machine.execCoderService us s
  | .blockOutcome ch => Sys2Proof.Machine.execBlockOutcome ch s
  | .endOfTake ch us => Sys2Proof.Machine.execEndOfTake ch us s
  | .forceStop src => Sys2Proof.Machine.execForceStop src s
  | .conversionRequest => Sys2Proof.Machine.execConversionRequest s
  | .conversionAnswer => Sys2Proof.Machine.execConversionAnswer s
  | .detection src => Sys2Proof.Machine.execDetection src s
  | .noLiveLetterNotice ch us => Sys2Proof.Machine.execNoLiveLetterNotice ch us s
  | .takeFinishing ch => Sys2Proof.Machine.execTakeFinishing ch s
  | .ringEmptying ch => Sys2Proof.Machine.execRingEmptying ch s
  | .drainStart => Sys2Proof.Machine.execDrainStart s
  | .letterHead => Sys2Proof.Machine.execLetterHead s
  | .bodyRecord => Sys2Proof.Machine.execBodyRecord s
  | .block => Sys2Proof.Machine.execBlock s
  | .letterEnd => Sys2Proof.Machine.execLetterEnd s
  | .letterResume => Sys2Proof.Machine.execLetterResume s
  | .suspension => Sys2Proof.Machine.execSuspension s
  | .pendingAbort => Sys2Proof.Machine.execPendingAbort s
  | .letterAbandon => Sys2Proof.Machine.execLetterAbandon s
  | .suspendedAbandon => Sys2Proof.Machine.execSuspendedAbandon s
  | .stationFrameBoundary => Sys2Proof.Machine.execStationFrameBoundary s
  | .poolFrameBoundary => Sys2Proof.Machine.execPoolFrameBoundary s
  | .reviewStoppedByTheDevice n us => Sys2Proof.Machine.execReviewStoppedByTheDevice n us s

end Sys2Proof.Machine
end

