-- ==== Sys2Proof/Safety.lean ====
section
/-! DEFINITION. What holds of the device at every moment of a safe run: the properties that every step keeps. -/

namespace Sys2Proof.Machine

/-- The runs of a receiver lie in their ranges and stand in the framing state they belong to, and without a signal it is in HUNT and holds
no byte (R155, R156). -/
def Receiver.sound (rx : Receiver) : Prop :=
  rx.badRun ≤ 3 ∧ rx.goodRun ≤ 1 ∧ (rx.sync = true → rx.goodRun = 0) ∧ (rx.sync = false → rx.badRun = 0 ∧ rx.seeking = false) ∧
  (rx.signal = false → rx.sync = false ∧ rx.buf = [])

/-- The receivers' runs, the queues of the two ports that are bounded by a check, and each channel's keys in flight lie within their
capacities (R155, R159, R160, R162, R165). The key reply queues, which no check bounds as they grow, are left out (log entry 39). -/
def PortsSound (s : State) : Prop :=
  s.station.rx.sound ∧ s.pool.rx.sound ∧ s.pool.control.length ≤ 8 ∧ s.pool.bypass.length ≤ 64 ∧ s.mgmt.queue.length ≤ 4 ∧
  ∀ ch : Chan, s.station.audio[ch].length ≤ 8 ∧ s.station.inFlight[ch] ≤ 16

/-- A location stands at most once on the free list, on the retired list or among the held ones, and on only one of them (R120, R124 to
R126); every run of the free list holds a location; and the location that INIT writes is on none of them yet (R122). -/
def BlockMemory.placesSound (m : BlockMemory) : Prop :=
  (runsList m.free ++ m.retired ++ m.held.map Held.loc).Nodup ∧ (∀ r ∈ m.free, 1 ≤ r.2) ∧
  ∀ a ∈ m.granted.toList ++ m.waiting, a.claim = .initWrite →
    m.ctrl = .init ∧ m.held = [] ∧ a.loc ∉ m.retired ∧ ∀ n ∈ runsList m.free, n < a.loc

/-- The contents of block memory have their canonical form (log entry 10), the patrol pointer names a location, and every location stands
in one place at most (R120, R133). -/
def MemorySound (s : State) : Prop := Memory.wf s.mem.cells = true ∧ s.mem.patrolPtr < nLocations ∧ s.mem.placesSound

/-- The segment records that the letters and their takes hold (R31). -/
def State.recordsHeld (s : State) : Nat :=
  ((List.finRange 96).map (fun i => match s.letters[i] with | some l => l.records | none => 0)).sum

/-- Free segment records, records in letter lists and records in pending takes total 16,384, and the free count is never less than
the reserve (R31, R38). -/
def SegmentsSound (s : State) : Prop := s.freeSegs + s.recordsHeld = nSegments ∧ s.reserve ≤ s.freeSegs

/-- The number of letters that are not FREE and are bound to a slot (R54). -/
def State.boundTo (s : State) (k : Slot) : Nat := (s.heldLetters.filter (fun il => decide (il.2.slot = k))).length

/-- A slot's reference count is the number of letters bound to it (R54). -/
def RefsSound (s : State) : Prop := ∀ k : Slot, s.profiles[k].refs = s.boundTo k

/-- The letter number counter and the letter numbers lie in 1..4,294,967,295, and no two letters carry the same number (R3). -/
def NumbersSound (s : State) : Prop :=
  (1 ≤ s.mgmt.letterCounter ∧ s.mgmt.letterCounter ≤ max32) ∧
  (∀ (i : LetterIx) (l : Letter), s.letters[i] = some l → 1 ≤ l.number ∧ l.number ≤ max32) ∧
  (∀ (i j : LetterIx) (l m : Letter), s.letters[i] = some l → s.letters[j] = some m → l.number = m.number → i = j)

/-- The counters of a channel (R178). -/
def ChanCounters.values (c : ChanCounters) : List Nat :=
  [c.accepted, c.stray, c.concealed, c.resyncs, c.overruns, c.coded, c.silent, c.satBlocks, c.clipBlocks, c.keysTaken, c.keysRefused]

/-- The part-wide counters and those of the links (R178). -/
def PartCounters.values (c : PartCounters) : List Nat :=
  [c.stationBad, c.stationHunts, c.poolBad, c.poolHunts, c.keyOverruns, c.reviewDrops, c.badChannel, c.bypassDrops, c.mgmtDrops,
   c.lettersDrained, c.lettersAbandoned, c.locsRetired]

/-- Every counter of the counters block, and every occurrence count of the Fault Record, lies within its 32 bits (R173, R178). -/
def CountersSound (s : State) : Prop :=
  (∀ ch : Chan, ∀ n ∈ s.mgmt.chanCounters[ch].values, n ≤ max32) ∧ (∀ n ∈ s.mgmt.part.values, n ≤ max32) ∧
  ∀ k : FaultKind, (s.mgmt.faults.tally k).count ≤ max32

/-- A safe state. -/
def Safe (s : State) : Prop :=
  PortsSound s ∧ MemorySound s ∧ SegmentsSound s ∧ RefsSound s ∧ NumbersSound s ∧ CountersSound s

/-! ### The terms the statements speak in -/

/-- A channel's entry is GOOD, its in-force copy holds these settings and its parity is right (R136, R137). -/
abbrev EntryGood (s : State) (ch : Chan) (st : Settings) : Prop :=
  s.table[ch].damaged = false ∧ s.table[ch].inForce = { settings := st, parityOk := true }

/-- A channel's current letter is the letter at an index (R4). -/
abbrev Current (s : State) (ch : Chan) (i : LetterIx) (l : Letter) : Prop := s.ctxs[ch].current = some i ∧ s.letters[i] = some l

/-- The time an idle timer is set to under these settings: none where the idle minutes are 0 (R7). -/
def idleOf (st : Settings) : Option Nat := if st.minutes = 0 then none else some st.minutes

/-- The command by which the Letter Controller takes a handset key (opcode table). -/
def HandsetKey.command (ch : Chan) (us : List Upset) : HandsetKey → Instr
  | .recordInsert => .recordInsert ch us
  | .recordOverwrite => .recordOverwrite ch us
  | .stop => .stop ch us
  | .cancelTake => .cancelTake ch us
  | .rewind => .rewind ch us
  | .forward => .forward ch us
  | .toStart => .toStart ch us
  | .toEnd => .toEnd ch us
  | .review => .review ch us
  | .endLetter => .endLetter ch us
  | .urgentOn => .urgentOn ch us
  | .urgentOff => .urgentOff ch us
  | .recall => .recall ch us
  | .discardArm => .discardArm ch us
  | .discard => .discard ch us

/-- The command by which the Letter Controller takes a key of any code, known or not (opcode table, R182). -/
def commandOf (ch : Chan) (us : List Upset) (code : Byte) : Instr :=
  match keyOfCode code with
  | some h => HandsetKey.command ch us h
  | none => .unknownKeyCode ch us

/-- A key whose own frame found no error is the oldest in passage on a channel, and the Letter Controller's read of the entry will deliver
these settings, whatever errors arose before it (R9, R145, R148). -/
abbrev KeyWaits (s : State) (us : List Upset) (ch : Chan) (k : Key) (st : Settings) : Prop :=
  s.wires.keys[ch].head? = some k ∧ k.spoilt = false ∧ EntryGood (s.upsets us) ch st

/-- A channel's counters after a key is taken, and refused or not (R9). -/
def keyCounted (c : ChanCounters) (refused : Bool) : ChanCounters :=
  { c with keysTaken := satAdd c.keysTaken 1, keysRefused := if refused then satAdd c.keysRefused 1 else c.keysRefused }

/-- The state after a key has been taken and has not been answered yet: the errors stand in the tables, the key has left its passage,
it counts as taken, the discard arm is clear and the idle timer is as given (R6, R7, R9). -/
def keyTaken (s : State) (us : List Upset) (ch : Chan) (idle : Option Nat) : State :=
  { s with
    table := (s.upsets us).table
    profiles := (s.upsets us).profiles
    ctxs := s.ctxs.set ch { s.ctxs[ch] with armed := false, idle := idle }
    mgmt := { s.mgmt with chanCounters := s.mgmt.chanCounters.set ch (keyCounted s.mgmt.chanCounters[ch] false) }
    wires := { s.wires with keys := s.wires.keys.set ch s.wires.keys[ch].tail } }

/-- A reply at the tail of its channel's queue (R159). -/
def replied (p : StationPort) (ch : Chan) (r : KeyReply) : StationPort := { p with replies := p.replies.set ch (p.replies[ch] ++ [r]) }

/-- An unsolicited LIMIT reply, with the letter's values (R19, R20). -/
def limitReply (l : Letter) (result : KeyResult) (cause : StopCause) : KeyReply :=
  { code := 0x81#8, result := result, cause := some cause, cursor := l.cursor, length := l.length, number := l.number }

/-- The reply to a key, with the view of the letter concerned (R8). -/
def replyTo (k : Key) (result : KeyResult) (v : LetterView) : KeyReply :=
  { code := k.code, result := result, cause := none, cursor := v.cursor, length := v.length, number := v.number }

/-- The Station Port after the one reply to a key: it stands at the tail of its channel's queue, and the key is in flight no more (R8, R159). -/
def stationReplied (p : StationPort) (ch : Chan) (r : KeyReply) : StationPort :=
  { p with replies := p.replies.set ch (p.replies[ch] ++ [r]), inFlight := p.inFlight.set ch (p.inFlight[ch] - 1) }

/-- The state after a key has been taken and answered and has had no other effect (R8, R9). -/
def keyAnswered (s : State) (us : List Upset) (ch : Chan) (k : Key) (result : KeyResult) (v : LetterView) (idle : Option Nat) : State :=
  { keyTaken s us ch idle with
    station := stationReplied s.station ch (replyTo k result v)
    mgmt := { s.mgmt with chanCounters := s.mgmt.chanCounters.set ch (keyCounted s.mgmt.chanCounters[ch] result.counts) } }

/-- The idle timer of a channel after a key that found its current letter: restarted where the letter is OPEN (R7). -/
def idleAfter (s : State) (ch : Chan) (st : Settings) : Option Nat :=
  match s.currentLetter ch with
  | some il => if il.2.phase = .opened then idleOf st else s.ctxs[ch].idle
  | none => s.ctxs[ch].idle

/-- The result and the values in the reply that tells of a close: DONE where the letter joined the queue, EMPTY where it was freed (R24). -/
def closedReply (l : Letter) : KeyResult × LetterView :=
  if l.length = 0 then (.empty, { cursor := 0, length := 0, number := l.number })
  else (.done, { cursor := l.cursor, length := l.length, number := l.number })

/-- The delivery context of a letter at its head (R103). -/
def deliveryStart (i : LetterIx) (l : Letter) : Delivery :=
  { letter := i, number := l.number, next := .head, seg := 0, handle := 0, pos := 0, body := 0, damaged := 0, abort := false }

/-- The device after the delivery of a QUEUED letter has begun (R103). -/
def deliveryBegun (s : State) (i : LetterIx) : State :=
  match s.letters[i] with
  | some l => match l.phase with
    | .queued ticket => { s with
      letters := s.letters.set i (some { l with phase := .draining ticket })
      drain := { s.drain with delivery := some (deliveryStart i l) } }
    | _ => s
  | none => s

/-- The device after the suspended letter has become the one delivered: LETTER-RESUME is its next record, or LETTER-ABANDON where its abort
is pending (R110). -/
def deliveryResumed (s : State) (x : Delivery) : State :=
  match s.letters[x.letter] with
  | some l => match l.phase with
    | .suspended ticket => { s with
      letters := s.letters.set x.letter (some { l with phase := .draining ticket })
      drain := { s.drain with delivery := some { x with next := if x.abort then .abandon else .resume }, suspended := none } }
    | _ => s
  | none => s

/-- The device after the choice that follows the end of a delivery (R108): the head of URGENT; else the suspended letter resumes; else, with
none suspended, the head of ROUTINE; else nothing is delivered. -/
def nextDelivery (s : State) : State :=
  match s.classOf .urgent, s.drain.suspended, s.classOf .routine with
  | i :: _, _, _ => deliveryBegun s i
  | [], some x, _ => deliveryResumed s x
  | [], none, i :: _ => deliveryBegun s i
  | [], none, [] => s

/-- The device after a drain start, if one can be taken: nothing is delivered or suspended, HOLD is clear, the pool link is not paused and the
controller is READY (R103). -/
def drainStarted (s : State) : State :=
  if s.drainMayAct = true ∧ s.drain.delivery = none ∧ s.drain.suspended = none then nextDelivery s else s

/-- The device after the switch, if it can be taken at the record boundary: the ROUTINE letter whose delivery this is, with no abort pending
and none suspended, gives way to the head of URGENT, back to QUEUED where no record of it has been handed and SUSPENDED otherwise (R109). -/
def switched (s : State) (d : Delivery) : State :=
  match s.letters[d.letter], s.classOf .urgent with
  | some m, i :: _ => match m.phase with
    | .draining ticket =>
      if s.drainMayAct = true ∧ s.drain.forming = none ∧ m.cls = .routine ∧ d.abort = false ∧ s.drain.suspended = none then
        deliveryBegun (if d.next = .head then { s with
          letters := s.letters.set d.letter (some { m with phase := .queued ticket })
          drain := { s.drain with delivery := none } }
        else { s with
          letters := s.letters.set d.letter (some { m with phase := .suspended ticket })
          drain := { s.drain with delivery := none, suspended := some { d with next := .resume } } }) i
      else s
    | _ => s
  | _, _ => s

/-- The device after a letter has left the issue list and been freed (R26, R98). -/
def letterFreed (s : State) (i : LetterIx) : State :=
  let left := { s with drain := { s.drain with issue := s.drain.issue.erase i } }
  match s.letters[i] with
  | some l =>
    let handedBack := s.handBackAll (listLocs l.list)
    { left with
      letters := s.letters.set i none
      freeSegs := s.freeSegs + l.records
      mem := handedBack.mem
      mgmt := handedBack.mgmt
      profiles := s.profiles.set l.slot { s.profiles[l.slot] with refs := s.profiles[l.slot].refs - 1 } }
  | none => left

/-- The device after the pending abort of a delivery, if it can be acted on at the record boundary: with Next HEAD the letter is freed without
a record, counted as abandoned, and the next delivery is chosen; otherwise LETTER-ABANDON is the next record (R115). -/
def abortTaken (s : State) (d : Delivery) : State :=
  if s.drainMayAct = true ∧ s.drain.forming = none ∧ d.next ≠ .abandon then
    if d.next = .head then
      let freed := letterFreed s d.letter
      nextDelivery { freed with
        drain := { freed.drain with delivery := none }
        mgmt := { freed.mgmt with
          part := { freed.mgmt.part with lettersAbandoned := satAdd freed.mgmt.part.lettersAbandoned 1 } } }
    else { s with drain := { s.drain with delivery := some { d with next := .abandon } } }
  else s

/-- The device after the Drain Engine has acted at once in an event that lets it, where it may: a drain start with nothing delivered, else a
pending abort, else a due suspension (R102, R103, R109, R112, R113, R115). -/
def drainActed (s : State) : State :=
  match s.drain.delivery with
  | none => drainStarted s
  | some d => if d.abort then abortTaken s d else switched s d

/-- The device after the Drain Engine has acted on a letter that has just joined a class of the queue, where it may: a drain start, or the
switch, which a letter whose next record is its LETTER-END does not make (R103, R109, R111). -/
def queueGrown (s : State) : State :=
  match s.drain.delivery with
  | none => drainStarted s
  | some d => if d.next = .ending then s else switched s d

/-- The device after a channel's current letter has been closed: with a length above 0 it stands at the tail of the issue list under the
next ticket not in use and is the last-closed letter, and the Drain Engine acts on it in the same event, where it may; with length 0 it is
freed. The channel has no current letter, and the Channel Table is to be told (R25, R26, R98, R99, R103, R109). -/
def letterClosed (s : State) (ch : Chan) (i : LetterIx) (l : Letter) : State :=
  let ctx := { s.ctxs[ch] with current := none, armed := false, idle := none }
  let told := { s with wires := { s.wires with noLive := s.wires.noLive.set ch (s.wires.noLive[ch] + 1) } }
  if l.length = 0 then { told with
    letters := s.letters.set i none
    freeSegs := s.freeSegs + l.list.length
    profiles := s.profiles.set l.slot { s.profiles[l.slot] with refs := s.profiles[l.slot].refs - 1 }
    ctxs := s.ctxs.set ch { ctx with lastClosed := none } }
  else
    let ticket := freshFrom s.ticketsHeld 96 s.drain.ticket
    queueGrown { told with
      letters := s.letters.set i (some { l with phase := .queued ticket })
      ctxs := s.ctxs.set ch { ctx with lastClosed := some (i, l.number) }
      drain := { s.drain with issue := s.drain.issue ++ [i], ticket := advance32 ticket } }

/-- The device after the Player has stopped a channel's review: its context is IDLE, and the contents of a read under way will be
discarded (R96). -/
def reviewStopped (s : State) (ch : Chan) : State :=
  { s with
    player := s.player.set ch { s.player[ch] with review := none }
    mem := { s.mem with
      waiting := s.mem.waiting.map (fun a => { a with claim := a.claim.unwant ch })
      granted := s.mem.granted.map (fun a => { a with claim := a.claim.unwant ch }) } }

/-- A pending take with a force-stop cause: taken once, and close-at-commit is yes for ENTRY and FAILED (R19). -/
def takeStopped (t : Take) (c : StopCause) : Take :=
  { t with
    causes := if t.causes.contains c then t.causes else t.causes ++ [c]
    closeAtCommit := t.closeAtCommit || decide (c = .entry) || decide (c = .failed) }

/-- The device after a channel's current letter has been stopped for its entry (R18 to R20): a take is force-stopped with cause ENTRY, its
LIMIT reply sent once; an OPEN or REVIEWING letter is closed after a LIMIT reply, its review stopped first. -/
def entryStopped (s : State) (ch : Chan) : State :=
  match s.currentLetter ch with
  | none => s
  | some (i, l) =>
    let limited := replied s.station ch (limitReply l .blocked .entry)
    match l.phase with
    | .recording t => { s with
      letters := s.letters.set i (some { l with phase := .finishing (takeStopped t .entry) })
      station := if t.causes.contains .entry then s.station else limited
      wires := { s.wires with captureRequests := s.wires.captureRequests.set ch (s.wires.captureRequests[ch] ++ [.finishing]) } }
    | .finishing t => { s with
      letters := s.letters.set i (some { l with phase := .finishing (takeStopped t .entry) })
      station := if t.causes.contains .entry then s.station else limited }
    | .opened => letterClosed { s with station := limited } ch i l
    | .reviewing => letterClosed { reviewStopped s ch with station := limited } ch i l
    | _ => s

/-- The detection of a wrong parity in an entry's pending copy, which names no letter (R139; log entry 23). -/
def pendingDetection (ch : Chan) : FaultContext :=
  { kind := .tableParity, place := .channelEntry ch true, number := none, chan := none, pos := none }

/-- A channel entry after its pending copy, if it has one, has been applied: in force with its parity right, and discarded, the entry
DAMAGED, with its parity wrong (R139). -/
def copyApplied (e : ChannelEntry) : ChannelEntry :=
  match e.pendingCopy with
  | none => e
  | some c =>
    if c.parityOk then { damaged := false, inForce := { settings := c.settings, parityOk := true }, pendingCopy := none }
    else { e with damaged := true, pendingCopy := none }

/-- An entry has a pending copy whose parity is wrong (R139). -/
def copyWrong (e : ChannelEntry) : Bool :=
  match e.pendingCopy with
  | none => false
  | some c => !c.parityOk

/-- The device after a read has found the parity of an entry's in-force copy wrong (R143): a TABLE_PARITY detection names the channel and
its current letter, the letter is stopped or closed for its entry, and the entry is DAMAGED until a pending copy is applied. -/
def entryDamaged (s : State) (ch : Chan) : State :=
  let x := entryStopped s ch
  { x with
    table := s.table.set ch (copyApplied { s.table[ch] with damaged := true })
    wires := { x.wires with detections := s.wires.detections ++
      { kind := .tableParity, place := .channelEntry ch false, number := (s.currentLetter ch).map (fun il => il.2.number),
        chan := some ch, pos := none } :: (if copyWrong s.table[ch] then [pendingDetection ch] else []) } }

/-- The parity of an entry's in-force copy is wrong, and no read has found it yet (R137, R143). -/
abbrev EntryWrong (s : State) (ch : Chan) : Prop := s.table[ch].damaged = false ∧ s.table[ch].inForce.parityOk = false

/-- The device after the idle timer of a channel has been started by a read of its entry (R7, R143, R145). -/
def idleStarted (s : State) (ch : Chan) : State :=
  let set := fun (x : State) (idle : Option Nat) => { x with ctxs := x.ctxs.set ch { x.ctxs[ch] with idle := idle } }
  if s.table[ch].damaged then set s none
  else if s.table[ch].inForce.parityOk then set s (idleOf s.table[ch].inForce.settings)
  else set (entryDamaged s ch) none

/-- The device after a read of a profile slot has found its parity wrong (R55): the slot is DAMAGED, a TABLE_PARITY detection names the
letter, the channel and the position of the read, and the takes and the reviews bound to the slot are to be stopped. -/
def slotDamaged (s : State) (k : Slot) (number : Nat) (ch : Chan) (pos : Option Nat) : State :=
  { s with
    profiles := s.profiles.set k { s.profiles[k] with status := .damaged }
    wires := { s.wires with
      detections := s.wires.detections ++
        [{ kind := .tableParity, place := .profileSlot k, number := some number, chan := some ch, pos := pos }]
      takeStops := s.wires.takeStops ++ [.profile k]
      reviewStops := s.wires.reviewStops ++ [.profile k] } }

/-- The device after the read that has just ended: a RELEASING location of which no other read is in progress is placed, on the retired list
where it is weak and at the tail of the free list otherwise (R125, R126). -/
def lastReadPlaced (s : State) (n : Nat) : State :=
  if s.mem.status n = .releasing ∧ ∀ a ∈ s.mem.waiting, a.claim.reads = true → a.loc ≠ n then
    let held := s.mem.held.filter (fun h => h.loc != n)
    if n ∈ s.mem.weak then { s with
      mem := { s.mem with held := held, retired := s.mem.retired ++ [n] }
      mgmt := { s.mgmt with part := { s.mgmt.part with locsRetired := satAdd s.mgmt.part.locsRetired 1 } } }
    else { s with mem := { s.mem with held := held, free := runsPush s.mem.free n } }
  else s

/-- The controller after a read that met errors: the location keeps them and is weak (R127 to R129). -/
def readWeakens (s : State) (n : Nat) (errs : List BitError) : State :=
  { s with mem := { s.mem with
      granted := none
      cells := Memory.write s.mem.cells n { block := (Memory.read s.mem.cells n).block, errs := errs }
      weak := if n ∈ s.mem.weak then s.mem.weak else s.mem.weak ++ [n] } }

/-- A detection of an error in a location, with the reader's context where there is one (R128, R129, R173). -/
def locationDetected (s : State) (kind : FaultKind) (n : Nat) (ctx : Option ReadContext) : State :=
  { s with wires := { s.wires with detections := s.wires.detections ++
      [{ kind := kind, place := .location n, number := ctx.map ReadContext.number, chan := ctx.map ReadContext.chan,
         pos := ctx.map ReadContext.pos }] } }

/-- The device after a read of a location has completed Good at the controller (R125, R127). -/
def readGood (s : State) (n : Nat) : State := lastReadPlaced { s with mem := { s.mem with granted := none } } n

/-- The device after a read of a location has completed Corrected at the controller: the location keeps its errors and is weak, a CORRECTED
detection carries the reader's context, and a RELEASING location is placed with its last read (R127, R128). -/
def readCorrected (s : State) (n : Nat) (ctx : Option ReadContext) (errs : List BitError) : State :=
  lastReadPlaced (locationDetected (readWeakens s n errs) .corrected n ctx) n

/-- The device after the handle of a location has been converted, as far as block memory goes: an ALLOCATED location is at the tail of the
retired list and counted; a location of another status stays where it is (R47, R126, R129). -/
def passedToRetired (s : State) (n : Nat) : State :=
  match s.mem.status n with
  | .allocated _ => { s with
      mem := { s.mem with held := s.mem.held.filter (fun h => h.loc != n), retired := s.mem.retired ++ [n] }
      mgmt := { s.mgmt with part := { s.mgmt.part with locsRetired := satAdd s.mgmt.part.locsRetired 1 } } }
  | _ => s

/-- The device after a read of a location has completed Uncorrectable at the controller (R129): the location keeps its errors and is weak.
Where its conversion is outstanding no other is asked for; of an ALLOCATED location the conversion of its handle is asked for; a RELEASING
one makes the detection, with the location alone, and is placed with its last read. -/
def readUncorrectable (s : State) (n : Nat) (errs : List BitError) : State :=
  let x := readWeakens s n errs
  if n ∈ s.wires.convRequests ∨ ∃ a ∈ s.wires.convAnswers, a.1 = n then lastReadPlaced x n
  else match s.mem.status n with
    | .allocated _ => { x with wires := { s.wires with convRequests := s.wires.convRequests ++ [n] } }
    | .releasing => lastReadPlaced (locationDetected x .uncorrected n none) n
    | _ => x

/-- The bits of a location that are in error at a read: those it holds and those found since (R127). -/
def errorsAt (s : State) (n : Nat) (found : List BitError) : List BitError := ((Memory.read s.mem.cells n).withErrors found).errs

/-- The bits in error leave a read that delivers the contents, and the device after it: none, or no more than one in each check
group (R127). -/
def ReadDelivers (s : State) (n : Nat) (ctx : Option ReadContext) (found : List BitError) (t : State) : Prop :=
  let errs := errorsAt s n found
  (errs = [] ∧ t = readGood s n) ∨
  (errs ≠ [] ∧ (∀ g : Fin 17, (errs.filter (fun e => e.group = g)).length ≤ 1) ∧ t = readCorrected s n ctx errs)

/-- The bits in error leave a read that delivers nothing, and the device after it: a check group with two (R127). -/
def ReadFails (s : State) (n : Nat) (found : List BitError) (t : State) : Prop :=
  let errs := errorsAt s n found
  (∃ g : Fin 17, (errs.filter (fun e => e.group = g)).length = 2) ∧ t = readUncorrectable s n errs

/-- A channel's counters after `n` counts of stray audio (R178). -/
def strayCounted (s : State) (ch : Chan) (n : Nat) : Vector ChanCounters 48 :=
  s.mgmt.chanCounters.set ch { s.mgmt.chanCounters[ch] with stray := satAdd s.mgmt.chanCounters[ch].stray n }

/-- The request at the head of the queue, of a kind and a fitting length, that the Management Handler can execute (R166). -/
abbrev RequestAt (s : State) (kind : Byte) (r : Request) : Prop :=
  s.mgmt.idle = true ∧ s.mgmt.queue.head? = some r ∧ r.kind = kind ∧ r.fits = true

/-- The state after a request has been executed with no other effect than its reply: it has left the queue, and the reply stands in the
control queue, or is held where that is full (R166). -/
def requestAnswered (s : State) (r : Request) (status : Status) (fields : List Byte) : State :=
  let reply : Reply := { kind := r.kind, tag := r.tag, status := status, fields := fields }
  if s.pool.control.length < 8 then
    { s with pool := { s.pool with control := s.pool.control ++ [.reply reply] }, mgmt := { s.mgmt with queue := s.mgmt.queue.tail } }
  else { s with mgmt := { s.mgmt with queue := s.mgmt.queue.tail, heldReply := some reply } }

/-- A block of a timeline: what one position holds (R30, R34). -/
inductive TimelineBlock where
  | handle (h : Handle)
  | silence
  | gap (c : GapCause)
deriving DecidableEq, Repr

/-- The blocks of a segment list, in timeline order (R30, R32). -/
def timeline : List Segment → List TimelineBlock
  | [] => []
  | .speech hs :: rest => hs.map TimelineBlock.handle ++ timeline rest
  | .silence d :: rest => List.replicate d TimelineBlock.silence ++ timeline rest
  | .gap c :: rest => TimelineBlock.gap c :: timeline rest

/-- A segment as R30 allows it, less the upper limit of a SILENCE. -/
def Segment.sound : Segment → Bool
  | .speech hs => decide (1 ≤ hs.length) && decide (hs.length ≤ 32)
  | .silence d => decide (1 ≤ d)
  | .gap _ => true

/-- A segment is a SILENCE. -/
def Segment.isSilence : Segment → Bool
  | .silence _ => true
  | _ => false

/-- A list as R33 and R35 want it: sound segments, and no two adjacent ones both SILENCE. -/
def listSound : List Segment → Bool
  | [] => true
  | [g] => g.sound
  | g :: h :: rest => g.sound && !(g.isSilence && h.isSilence) && listSound (h :: rest)

/-- The samples that a ring holds, oldest first (R70). -/
def ringSamples (ring : List RingEntry) : List Sample :=
  ring.flatMap (fun e => match e with | .block xs _ _ => xs | .gap _ _ => [])

/-- The sample blocks that a run of samples fills, 256 to a block and the last perhaps partial; a block is FILLED where one of its samples
is a concealment's zero, or stood in a FILLED block (R70, R72, R73). -/
def filledBlocks (xs : List (Sample × Bool)) : List RingEntry :=
  (List.range ((xs.length + 255) / 256)).map (fun j =>
    let ys := (xs.drop (256 * j)).take 256
    .block (ys.map Prod.fst) (ys.any Prod.snd) false)

/-- Two rings of which the second is the first with its oldest whole sample block dropped: an OVERRUN gap entry takes the block's place, or,
where the entry just before the block is an OVERRUN gap entry with a count below 65,535, that count rises by 1 and the place closes
up (R75). -/
def OldestDropped (r r' : List RingEntry) : Prop :=
  ∃ (front rest : List RingEntry) (ys : List Sample) (f p : Bool),
    r = front ++ .block ys f p :: rest ∧ (∀ g ∈ front, g.isGap = true) ∧ ys.length = 256 ∧
    ((∃ before n, front = before ++ [.gap .overrun n] ∧ n < 65535 ∧ r' = before ++ .gap .overrun (n + 1) :: rest) ∨
     ((∀ before n, front = before ++ [.gap .overrun n] → 65535 ≤ n) ∧ r' = front ++ .gap .overrun 1 :: rest))

/-- Two rings of which the second is the first after as many drops of its oldest whole block as it takes, and no more, before the
samples needed find room among the 1,024 (R75). -/
def RoomMade (need : Nat) : Nat → List RingEntry → List RingEntry → Prop
  | 0, r, r' => ringRoom r + need ≤ 1024 ∧ r' = r
  | n + 1, r, r' => 1024 < ringRoom r + need ∧ ∃ r1, OldestDropped r r1 ∧ RoomMade need n r1 r'

/-- Two rings of which the second is the first with the break of a resync marked: without its partial block, if it had one, and with a
SEQUENCE gap entry at its end, or with 1 more in the count of the newest entry where that is a SEQUENCE gap entry with a count below
65,535 (R74). -/
def BreakMarked (r r' : List RingEntry) : Prop :=
  ∃ kept : List RingEntry,
    ((∃ ys f p, r = kept ++ [.block ys f p] ∧ ys.length < 256) ∨
     (r = kept ∧ ∀ before ys f p, r = before ++ [.block ys f p] → 256 ≤ ys.length)) ∧
    ((∃ before n, kept = before ++ [.gap .sequence n] ∧ n < 65535 ∧ r' = before ++ [.gap .sequence (n + 1)]) ∨
     ((∀ before n, kept = before ++ [.gap .sequence n] → 65535 ≤ n) ∧ r' = kept ++ [.gap .sequence 1]))

/-- The decisions of the silence detector for blocks of these energies, in order (R58, R59). -/
def decisions (P : Profile) : Talk → List Nat → List Bool
  | _, [] => []
  | d, e :: rest => (d.step P e).1 :: decisions P (d.step P e).2 rest

/-- The bytes behind a start pattern come to a bad frame: a length above 300, or a whole frame whose check does not match (R154). -/
def Malformed (bs : List Byte) : Prop :=
  ∃ l1 l0 body, bs = l1 :: l0 :: body ∧
    let n := natOfBytes [l1, l0]
    300 < n ∨ n + 4 ≤ body.length ∧ fieldAt body (n + 2) 2 ≠ (frameCheck (body.take (n + 2))).toNat

/-- Bytes begin a bad frame: with the start pattern and malformed bytes behind it, or, for a receiver in SYNC that does not search, with
anything that is not the start pattern and no idle byte (R153 to R155). -/
def BadFrameAt (rx : Receiver) (x : Byte) (rest : List Byte) : Prop :=
  (x = startByte ∧ ∃ bs, rest = startSecond :: bs ∧ Malformed bs) ∨
  (rx.sync = true ∧ rx.seeking = false ∧ x ≠ idleByte ∧ (x ≠ startByte ∨ ∃ y more, rest = y :: more ∧ y ≠ startSecond))

/-- Bytes that a receiver passes over before a frame: idle ones, and, where it searches for a start pattern, any but the pattern's
first (R153, R155). -/
def PassedOver (rx : Receiver) (front : List Byte) : Prop :=
  (∀ x ∈ front, x = idleByte) ∨ ((rx.sync = false ∨ rx.seeking = true) ∧ ∀ x ∈ front, x ≠ startByte)

/-- Bytes of a frame whose last byte has not come: as much of the start pattern and the length as there is, a length of 300 at most, and fewer
bytes behind it than header, payload and check make (R153, R154). -/
def FrameBegun (bs : List Byte) : Prop :=
  bs = [startByte] ∨ bs = [startByte, startSecond] ∨ (∃ l1, bs = [startByte, startSecond, l1]) ∨
  ∃ l1 l0 body, bs = startByte :: startSecond :: l1 :: l0 :: body ∧ natOfBytes [l1, l0] ≤ 300 ∧ body.length < natOfBytes [l1, l0] + 4

/-- Bytes hold a whole frame: behind what a receiver passes over stand a good frame, or the bytes that begin a bad one (R154). -/
def FrameWhole (rx : Receiver) (bytes : List Byte) : Prop :=
  ∃ front, PassedOver rx front ∧
    ((∃ kind ch payload behind, payload.length ≤ 300 ∧ bytes = front ++ (frameBytes kind ch payload ++ behind)) ∨
     (∃ x behind, bytes = front ++ x :: behind ∧ BadFrameAt rx x behind))

/-- Bytes hold no whole frame: behind what a receiver passes over stands nothing, or a frame begun, which `begun` tells (R154). -/
def FrameAwaited (rx : Receiver) (bytes : List Byte) (begun : Bool) : Prop :=
  ∃ front bs, PassedOver rx front ∧ bytes = front ++ bs ∧ (bs = [] ∧ begun = false ∨ FrameBegun bs ∧ begun = true)

/-- A link's receiver is in SYNC, hears a signal and holds no byte of a frame (R155, R156). -/
abbrev Listening (s : State) (link : Link) : Prop :=
  (s.rx link).sync = true ∧ (s.rx link).signal = true ∧ (s.rx link).buf = []

/-- The state in which a receiver in SYNC has taken a good frame, before the frame is delivered (R155). -/
def goodTaken (s : State) (us : List Upset) (link : Link) : State :=
  (s.upsets us).setRx link { s.rx link with badRun := 0, seeking := false }

/-- How far a channel stands behind a pointer in ascending cyclic order over 0..47: 0 for the channel right after it (R80, R161). -/
def cyclicDist (ptr ch : Chan) : Nat := (ch.val + 47 - ptr.val) % 48

/-- The command that executes a request of each kind (10.3, opcode table). -/
def requestCommands : List (Byte × Instr) :=
  [(0x01#8, .identify), (0x02#8, .readChannel), (0x03#8, .writeChannel), (0x04#8, .readProfile), (0x05#8, .writeProfile),
   (0x06#8, .clearProfile), (0x07#8, .readLetter), (0x08#8, .listLetters), (0x09#8, .forceClose), (0x0A#8, .abortLetter),
   (0x0B#8, .holdDrain), (0x0C#8, .releaseDrain), (0x0D#8, .readFaults), (0x0E#8, .clearFaults), (0x0F#8, .setNotices),
   (0x10#8, .readCounters), (0x11#8, .clearCounters), (0x12#8, .setLetterBase), (0x13#8, .setPatrol), (0x14#8, .softReset)]

/-- The device after the reset event, from the state in which the reply has joined and the errors stand in the tables (R123, R139, R164, R180,
R181): pending copies are applied in ascending channel order, one whose parity is wrong makes its entry DAMAGED and a detection that the
new Fault Record takes at once, and the first of these makes a notice where the level announces it. -/
def ResetTaken (s t : State) : Prop :=
  let wrong := (List.finRange 48).filter (fun ch => copyWrong s.table[ch])
  let made : List Notice := if s.mgmt.level = .serious ∨ s.mgmt.level = .all then
    (wrong.take 1).map (fun ch => { kind := .tableParity, count := 1, context := pendingDetection ch }) else []
  t.letters = Vector.replicate 96 none ∧ t.freeSegs = 16384 ∧
  t.ctxs = Vector.replicate 48 Context.reset ∧ t.capture = Vector.replicate 48 Capture.reset ∧ t.coder = Coder.reset ∧
  t.player = Vector.replicate 48 PlayerChan.reset ∧ t.drain = Drain.reset ∧ t.wires = Wires.reset ∧ t.pending = s.pending ∧
  (∀ k : Slot, t.profiles[k] = { s.profiles[k] with refs := 0 }) ∧
  (∀ ch : Chan, t.table[ch] = copyApplied s.table[ch]) ∧
  t.mem.ctrl = .init ∧ t.mem.retired = s.mem.retired ∧ t.mem.weak = s.mem.weak ∧ t.mem.free = [] ∧ t.mem.held = [] ∧
  t.mem.granted = none ∧ t.mem.patrolPtr = 0 ∧
  (∃ n, n ∉ s.mem.retired ∧ (∀ m, m < n → m ∈ s.mem.retired) ∧ t.mem.waiting = [{ claim := .initWrite, loc := n }]) ∧
  t.station = { s.station with inFlight := Vector.replicate 48 0 } ∧
  t.pool = { s.pool with
    flow := .go, control := s.pool.control ++ (if s.pool.control.length < 8 then made.map ControlFrame.notice else []) } ∧
  t.mgmt = { Management.reset with
    level := s.mgmt.level
    letterCounter := s.mgmt.letterCounter
    patrolOn := s.mgmt.patrolOn
    owed := if s.pool.control.length < 8 then [] else made
    faults := { FaultRecord.reset with
      tableParity := { seen := !wrong.isEmpty, count := wrong.length }
      context := wrong.getLast?.map pendingDetection } }

/-- The keys that are answered REFUSED for the state of the current letter alone (1.3, R11, R16, R22, R28, R29). -/
def refusedIn : HandsetKey → Phase → Bool
  | .recordInsert, .recording _ | .recordOverwrite, .recording _ | .review, .recording _ | .discardArm, .recording _ => true
  | .recordInsert, .reviewing | .recordOverwrite, .reviewing | .review, .reviewing | .discardArm, .reviewing => true
  | .cancelTake, .opened | .cancelTake, .reviewing => true
  | .recall, .opened | .recall, .recording _ | .recall, .reviewing => true
  | _, _ => false

end Sys2Proof.Machine
end

