-- ==== Sys2Proof/Certificates/Slice0/Obligations.lean ====
section
/-! DEFINITION. The statements for the provers. OBLIGATIONS.json lists them. -/

open Sys2Proof Sys2Proof.Machine

/-! ### The step, power-on and what every step keeps -/

/-- A step runs the command at the front of the queue on the state with the queue's rest; with an empty queue the device idles,
which is the model's choice (log entry 2). -/
def Obligations.StepRunsTheFrontCommand : Prop :=
  (∀ (c : Instr) (rest : List Instr) (s : State), step { s with pending := c :: rest } = exec c { s with pending := rest }) ∧
  (∀ s : State, s.pending = [] → step s = .next s)

/-- Every command is answered with a next state, whatever the state: a command whose event has not occurred changes nothing, which is the
model's choice (log entry 3). No command touches the queue of the commands that wait, which is the model's own (log entry 2). -/
def Obligations.EveryCommandAnswersAndLeavesTheQueue : Prop :=
  ∀ (c : Instr) (s : State), ∃ t, exec c s = .next t ∧ t.pending = s.pending

/-- POWER_ON gives every block its power-on values (R1, R3, R4, R31, R50, R70, R71, R79, R87, R98, R99, R101, R122, R136, R155, R158 to
R164, R173, R178). It leaves the queue of the commands that wait, which is the model's own (log entry 2); the channel's letter number in
the Coder is the model's own too (log entry 23), and whether a link has a signal is the line's to say (log entry 14). That block memory lists
no contents, so that a location reads as zero before INIT has written it, is log entry 10's choice, and that the parity of a profile slot
agrees is log entry 30's reading; that of a channel's in-force copy is set at power-on (R137). -/
def Obligations.PowerOnValues : Prop :=
  ∀ s : State, ∃ t, exec .powerOn s = .next t ∧ t.pending = s.pending ∧
    (∀ i : LetterIx, t.letters[i] = none) ∧ t.freeSegs = 16384 ∧
    (∀ ch : Chan, t.ctxs[ch] = { current := none, lastClosed := none, held := none, armed := false, idle := none, takeSerial := 0 } ∧
      t.capture[ch] = { ring := [], state := .idle, expected := none } ∧ t.player[ch] = { review := none, seq := 0 } ∧
      t.coder.chans[ch] = { serial := 0, number := 0, slot := 0, carry := 0, detector := .talk, halted := false, withheld := false } ∧
      t.table[ch].damaged = false ∧ t.table[ch].pendingCopy = none ∧
      t.table[ch].inForce =
        { settings := { mode := .blocked, author := 0, slot := 0, cls := .routine, maxDur := 65535, minutes := 0 }, parityOk := true } ∧
      t.station.replies[ch] = [] ∧ t.station.audio[ch] = [] ∧ t.station.inFlight[ch] = 0 ∧
      t.mgmt.chanCounters[ch] = ChanCounters.zero ∧
      t.wires.keys[ch] = [] ∧ t.wires.reports[ch] = [] ∧ t.wires.captureRequests[ch] = [] ∧ t.wires.noLive[ch] = 0) ∧
    (∀ k : Slot, t.profiles[k].status = .empty ∧ t.profiles[k].contents = zeroProfile ∧ t.profiles[k].generation = 0 ∧
      t.profiles[k].refs = 0 ∧ t.profiles[k].parityOk = true) ∧
    t.coder.write = none ∧ t.coder.ptr = 47 ∧
    t.drain = { issue := [], ticket := 1, delivery := none, suspended := none, hold := false, forming := none } ∧
    t.mem = { ctrl := .init, initNext := 0, free := [], retired := [], held := [], weak := [], cells := [],
              waiting := [{ claim := .initWrite, loc := 0 }], granted := none, patrolPtr := 0 } ∧
    t.station.rx = { sync := false, badRun := 0, goodRun := 0, signal := s.station.rx.signal, seeking := false, buf := [] } ∧
    t.station.replyPtr = 47 ∧ t.station.audioPtr = 47 ∧ t.station.sending = none ∧
    t.pool = { rx := { sync := false, badRun := 0, goodRun := 0, signal := s.pool.rx.signal, seeking := false, buf := [] }, flow := .go,
               control := [], bypass := [], slot := none, sending := none } ∧
    t.mgmt.queue = [] ∧ t.mgmt.executing = none ∧ t.mgmt.heldReply = none ∧ t.mgmt.faults = FaultRecord.reset ∧ t.mgmt.owed = [] ∧
    t.mgmt.level = .serious ∧ t.mgmt.part = PartCounters.zero ∧ t.mgmt.letterCounter = 1 ∧ t.mgmt.patrolOn = true ∧
    t.wires.takeStops = [] ∧ t.wires.reviewStops = [] ∧ t.wires.detections = [] ∧ t.wires.convRequests = [] ∧ t.wires.convAnswers = []

/-- The state right after reset is safe. -/
def Obligations.ResetStateIsSafe : Prop :=
  Safe State.reset

/-- Every step keeps the receivers' runs in range, a receiver without a signal in HUNT and without a byte of a frame, the control, bypass,
review audio and request queues within their capacities, and no more than 16 keys of a channel in flight (R155, R156, R159, R160, R162, R165).
The key reply queues are left out: R159 gives their 32 as a reckoning of the replies that can be owed, which is no invariant of a step
(log entry 39). -/
def Obligations.EveryStepKeepsThePortsSound : Prop :=
  ∀ s t : State, PortsSound s → step s = .next t → PortsSound t

/-- Every step keeps a location at most once on the free list, the retired list or among the held ones, and on only one of them (R120,
R124, R125, R126), and the patrol pointer in range (R133). It keeps the canonical form of the list that holds the contents of block
memory, which is the model's own representation (log entry 10). -/
def Obligations.EveryStepKeepsBlockMemorySound : Prop :=
  ∀ s t : State, MemorySound s → step s = .next t → MemorySound t

/-- Every step keeps the total of 16,384 segment records, and the free count never falls below the segment reserve (R31, R38). -/
def Obligations.EveryStepKeepsTheSegmentPool : Prop :=
  ∀ s t : State, SegmentsSound s → step s = .next t → SegmentsSound t

/-- Every step keeps each slot's reference count equal to the number of letters that are not FREE and are bound to it (R54). While a
slot's reference count is above zero, no command but POWER_ON changes the slot's generation (R54). -/
def Obligations.EveryStepKeepsTheReferenceCounts : Prop :=
  (∀ s t : State, RefsSound s → step s = .next t → RefsSound t) ∧
  (∀ (c : Instr) (s t : State) (k : Slot), c ≠ .powerOn → 0 < s.profiles[k].refs → exec c s = .next t →
     t.profiles[k].generation = s.profiles[k].generation)

/-- Every step keeps the letter numbers in 1..4,294,967,295 and different from one another (R3), and every counter and every occurrence
count of the Fault Record within its 32 bits (R173, R178). -/
def Obligations.EveryStepKeepsLetterNumbersDistinct : Prop :=
  (∀ s t : State, NumbersSound s → step s = .next t → NumbersSound t) ∧
  (∀ s t : State, CountersSound s → step s = .next t → CountersSound t)

/-- No command but POWER_ON takes a location off the retired list or moves one on it: a location joins at the tail and stays (R126).
-/
def Obligations.OnlyPowerOnShortensTheRetiredList : Prop :=
  ∀ (c : Instr) (s t : State), c ≠ .powerOn → exec c s = .next t → s.mem.retired <+: t.mem.retired

/-! ### Compression and segment lists -/

/-- The samples the Player decodes from a coded block are the Coder's reconstruction of it, for every valid profile, every step
index and every block of 256 samples (R67). -/
def Obligations.DecodedSamplesEqualTheReconstruction : Prop :=
  ∀ (P : Profile) (k0 : Nat) (xs : List Sample) (filled padded : Bool), Profile.valid P = true → k0 ≤ 63 → xs.length = 256 →
    decodeBlock P (codeBlock P k0 xs filled padded).1 = reconstruction P k0 xs

/-- From TALK, of a run of blocks whose energies all lie below T_enter the first H are coded and the rest are silent (R59). -/
def Obligations.HangoverCodesTheFirstBlocksBelowTheThreshold : Prop :=
  ∀ (P : Profile) (es : List Nat), Profile.valid P = true → (∀ e ∈ es, e < P.tEnter) →
    decisions P .talk es = List.replicate (min es.length P.hang) true ++ List.replicate (es.length - P.hang) false

/-- A splice of a take at c gives the timeline that INSERT and OVERWRITE ask for: the blocks before c, the take, and the blocks from
c on, or from c + L on (R40, R41, R42). A splice keeps the shape of a list: every SPEECH of 1 to 32 handles, no two adjacent SILENCE
segments (R33, R45). -/
def Obligations.SpliceGivesTheTimelineAndKeepsTheShape : Prop :=
  (∀ (c : Nat) (take list : List Segment), c ≤ listDur list →
     timeline (spliceList .insert c take list) = (timeline list).take c ++ timeline take ++ (timeline list).drop c ∧
     timeline (spliceList .overwrite c take list) =
       (timeline list).take c ++ timeline take ++ (timeline list).drop (c + listDur take)) ∧
  (∀ (mode : TakeMode) (c : Nat) (take list : List Segment), c ≤ listDur list → listSound list = true → listSound take = true →
     listSound (spliceList mode c take list) = true)

/-- An append of a block outcome adds one block at the end of a take's timeline, keeps the list's shape, and draws a record exactly
where the list gets longer (R35, R36). -/
def Obligations.AppendAddsOneBlock : Prop :=
  ∀ (list : List Segment) (o : BlockOutcome), listSound list = true →
    timeline (appendOutcome list o) = timeline list ++
      [match o with | .coded n => TimelineBlock.handle (.loc n) | .silent => .silence | .gap c => .gap c] ∧
    listSound (appendOutcome list o) = true ∧
    (appendOutcome list o).length = list.length + (if drawsRecord list o then 1 else 0)

/-! ### The links -/

/-- What a receiver makes of the bytes that it holds and those that FRAME_RECEIVED brings, by the framing table of R155. Bytes of a frame
that is not whole yet are kept, idle bytes are passed over, and nothing else changes (R153, R155). In HUNT a good frame is taken without
being delivered: the good-frame run becomes 1, or, where it was 1 and the frame follows directly, the receiver regains SYNC with both runs
0 (R155); a stray byte before it sets the run back, so that the frame counts 1 again. A bad frame sets the good-frame run to 0 in HUNT and
is not counted; in SYNC with a run of 0 to 2 it raises the run and is counted, and the receiver searches from the byte behind the bad
frame's first byte (R154, R155). In the event in which the pool receiver regains SYNC the Drain Engine acts, where it may (R113). The fourth bad frame in a row and a loss of signal take the pool receiver from SYNC to HUNT: both runs 0,
the entry counted, a frame counted as bad where one is bad or was being received, and nothing else changed; a loss of signal in HUNT only
sets the run to 0 (R155, R156). A frame whose last byte came before the loss is received before it, as by a FRAME_RECEIVED (R154). Without a signal no frame is found (R156). That the bytes and the signal come with the commands, and that a
FRAME_RECEIVED without a signal leaves the receiver as it is until SIGNAL_LOSS is taken, is log entry 14's choice. -/
def Obligations.ReceiversFollowTheFramingTable : Prop :=
  (∀ (s : State) (link : Link) (bytes : List Byte) (us : List Upset),
     let rx := s.rx link
     let left := fun (r : Receiver) => (s.upsets us).setRx link r
     (∀ (n k : Nat) (kind ch : Byte) (payload : List Byte), payload.length ≤ 300 → k < (frameBytes kind ch payload).length →
       rx.buf ++ bytes = List.replicate n idleByte ++ (frameBytes kind ch payload).take k →
       exec (.frameReceived link ⟨true, bytes⟩ us) s = .next (left { rx with signal := true, buf := (frameBytes kind ch payload).take k })) ∧
     (∀ (n : Nat) (kind ch : Byte) (payload rest : List Byte), payload.length ≤ 300 → rx.sync = false →
       rx.buf ++ bytes = List.replicate n idleByte ++ (frameBytes kind ch payload ++ rest) →
       (rx.goodRun = 0 → exec (.frameReceived link ⟨true, bytes⟩ us) s = .next (left { rx with signal := true, goodRun := 1, buf := rest })) ∧
       (rx.goodRun = 1 →
         let regained := left { sync := true, badRun := 0, goodRun := 0, signal := true, seeking := false, buf := rest }
         exec (.frameReceived link ⟨true, bytes⟩ us) s = .next (if link = .pool then drainActed regained else regained))) ∧
     (∀ (x : Byte) (kind ch : Byte) (payload rest : List Byte), payload.length ≤ 300 → rx.sync = false → x ≠ idleByte → x ≠ startByte →
       (rx.buf ++ bytes = x :: (frameBytes kind ch payload ++ rest) →
         exec (.frameReceived link ⟨true, bytes⟩ us) s = .next (left { rx with signal := true, goodRun := 1, buf := rest })) ∧
       (rx.buf ++ bytes = [x] →
         exec (.frameReceived link ⟨true, bytes⟩ us) s = .next (left { rx with signal := true, goodRun := 0, buf := [] }))) ∧
     (∀ (n : Nat) (x : Byte) (rest : List Byte), rx.buf ++ bytes = List.replicate n idleByte ++ x :: rest → BadFrameAt rx x rest →
       (rx.sync = false → exec (.frameReceived link ⟨true, bytes⟩ us) s = .next (left { rx with signal := true, goodRun := 0, buf := rest })) ∧
       (rx.sync = true → rx.badRun ≤ 2 → exec (.frameReceived link ⟨true, bytes⟩ us) s =
         .next ((left { rx with signal := true, badRun := rx.badRun + 1, seeking := true, buf := rest }).countPart
           (PartCounters.addBad 1 link)))) ∧
     exec (.frameReceived link ⟨false, bytes⟩ us) s = .next s ∧
     (rx.signal = false → exec (.signalLoss link bytes us) s = .next s) ∧
     (∀ begun, rx.signal = true → rx.sync = false → FrameAwaited rx (rx.buf ++ bytes) begun →
       exec (.signalLoss link bytes us) s = .next (left { rx with goodRun := 0, signal := false, buf := [] })) ∧
     (rx.signal = true → FrameWhole rx (rx.buf ++ bytes) → ∃ t, exec (.frameReceived link ⟨true, bytes⟩ us) s = .next t ∧
       exec (.signalLoss link bytes us) s = exec (.signalLoss link [] []) t)) ∧
  (∀ (s : State) (us : List Upset), s.pool.rx.sync = true →
     let hunt := fun (signal : Bool) (buf : List Byte) => (s.upsets us).setRx .pool
       { sync := false, badRun := 0, goodRun := 0, signal := signal, seeking := false, buf := buf }
     (∀ (bytes : List Byte) (n : Nat) (x : Byte) (rest : List Byte), s.pool.rx.badRun = 3 →
       s.pool.rx.buf ++ bytes = List.replicate n idleByte ++ x :: rest → BadFrameAt s.pool.rx x rest →
       exec (.frameReceived .pool ⟨true, bytes⟩ us) s =
         .next (((hunt true rest).countPart (PartCounters.addBad 1 .pool)).countPart (PartCounters.addHunts 1 .pool))) ∧
     (∀ (bytes : List Byte) (begun : Bool), s.pool.rx.signal = true → FrameAwaited s.pool.rx (s.pool.rx.buf ++ bytes) begun →
       exec (.signalLoss .pool bytes us) s = .next
         ((if begun then (hunt false []).countPart (PartCounters.addBad 1 .pool) else hunt false []).countPart (PartCounters.addHunts 1 .pool))))

/-- When the station receiver goes from SYNC to HUNT, by the fourth bad frame in a row or by a loss of signal, every take in RECORDING is
force-stopped with cause LINK, one already in FINISHING takes the cause and tells it, and every review is stopped, its letter OPEN with
its idle timer started (R7, R18, R19, R20, R155, R156, R157). A frame being received when the signal is lost is counted as bad (R154, R156): that
the last bytes come with SIGNAL_LOSS is log entry 14's choice. Where the read for an idle timer finds the parity of the entry wrong, the letter is
closed for its entry (R143), its LIMIT reply before the REVIEW reply, which is log entry 34's order; it joins the queue, and its delivery
may start in the same event (R103). -/
def Obligations.StationLinkEntersHunt : Prop :=
  ∀ (s : State) (c : Instr) (counted signal : Bool) (buf : List Byte) (us : List Upset), s.station.rx.sync = true →
    ((∃ bytes n x, c = .frameReceived .station ⟨true, bytes⟩ us ∧ s.station.rx.buf ++ bytes = List.replicate n idleByte ++ x :: buf ∧
        BadFrameAt s.station.rx x buf ∧ s.station.rx.badRun = 3 ∧ counted = true ∧ signal = true) ∨
      (∃ bytes, c = .signalLoss .station bytes us ∧ FrameAwaited s.station.rx (s.station.rx.buf ++ bytes) counted) ∧
        s.station.rx.signal = true ∧ signal = false ∧ buf = []) →
    (∀ (a b : Chan) (i : LetterIx), s.ctxs[a].current = some i → s.ctxs[b].current = some i → a = b) →
    ∃ t, exec c s = .next t ∧
      t.station.rx = { sync := false, badRun := 0, goodRun := 0, signal := signal, seeking := false, buf := buf } ∧
      t.mgmt.part = (if counted then s.mgmt.part.addBad 1 .station else s.mgmt.part).addHunts 1 .station ∧
      t.capture = s.capture ∧ t.coder = s.coder ∧ t.pool = s.pool ∧
      ((∀ ch : Chan, ¬EntryWrong (s.upsets us) ch) → t.drain = s.drain ∧ t.freeSegs = s.freeSegs) ∧
      ∀ (ch : Chan) (i : LetterIx) (l : Letter), Current s ch i l →
        (∀ x, l.phase = .recording x ∨ l.phase = .finishing x →
          t.letters[i] = some { l with phase := .finishing (takeStopped x .link) } ∧
          t.wires.captureRequests[ch] = s.wires.captureRequests[ch] ++ (if l.phase = .recording x then [.finishing] else []) ∧
          t.station.replies[ch] = s.station.replies[ch] ++
            (if x.causes.contains .link then [] else [limitReply l .done .link]) ∧ t.ctxs[ch] = s.ctxs[ch]) ∧
        (l.phase = .reviewing →
          let review : KeyReply :=
            { code := 0x09#8, result := .done, cause := some .link, cursor := l.cursor, length := l.length, number := l.number }
          t.player[ch].review = none ∧
          (¬EntryWrong (s.upsets us) ch → t.letters[i] = some { l with phase := .opened } ∧
            t.ctxs[ch] = { s.ctxs[ch] with
              idle := (if (s.upsets us).table[ch].damaged then none else idleOf (s.upsets us).table[ch].inForce.settings) } ∧
            t.station.replies[ch] = s.station.replies[ch] ++ [review]) ∧
          (EntryWrong (s.upsets us) ch → 0 < l.length →
            (∃ ticket, t.letters[i] = some { l with phase := .queued ticket } ∨ t.letters[i] = some { l with phase := .draining ticket }) ∧
            i ∈ t.drain.issue ∧
            t.ctxs[ch] = { s.ctxs[ch] with current := none, armed := false, idle := none, lastClosed := some (i, l.number) } ∧
            t.table[ch] = copyApplied { (s.upsets us).table[ch] with damaged := true } ∧
            t.station.replies[ch] = s.station.replies[ch] ++ [limitReply l .blocked .entry, review])) ∧
        (l.phase = .opened → t.letters[i] = some l ∧ t.station.replies[ch] = s.station.replies[ch] ∧ t.ctxs[ch] = s.ctxs[ch])

/-- Each of the commands that is named for a frame is the FRAME_RECEIVED of the bytes of that frame, and does nothing where the link has no
signal: that the table's rows for one kind of frame and FRAME_RECEIVED, which brings any bytes, are one arrival is log entry 14's choice
(R153, R156, R182, R183). In SYNC a frame is found behind idle bytes, and, after a bad frame, behind any bytes that hold no start pattern,
and is then delivered just as when it arrives alone at a receiver that holds no byte and searches for nothing (R153, R155, R156). -/
def Obligations.DeliveredFramesActAsTheirCommands : Prop :=
  (∀ (s : State) (us : List Upset),
     let arrives := fun (link : Link) (kind ch : Byte) (payload : List Byte) (c : Instr) (us : List Upset) =>
       ((s.rx link).signal = true → exec c s = exec (.frameReceived link ⟨true, frameBytes kind ch payload⟩ us) s) ∧
       ((s.rx link).signal = false → exec c s = .next s)
     (∀ b seq xs, arrives .station 0x01#8 b (audioPayload seq xs) (.audio b seq xs us) us) ∧
     (∀ b code count, arrives .station 0x02#8 b (keyPayload code count.toNat) (.key b code count us) us) ∧
     (∀ kind b payload, stationKindFits kind payload.length = false →
       arrives .station kind b payload (.stationFrameDropped kind (b, payload)) []) ∧
     (∀ payload, arrives .pool 0x21#8 0x00#8 payload (.mgmtRequest payload) []) ∧
     arrives .pool 0x22#8 0x00#8 [] .pause [] ∧ arrives .pool 0x23#8 0x00#8 [] .go [] ∧
     (∀ kind b payload, poolKindFits kind payload.length = false → arrives .pool kind b payload (.poolFrameDropped kind (b, payload)) [])) ∧
  (∀ (s : State) (link : Link) (us : List Upset) (bytes front : List Byte) (kind ch : Byte) (payload : List Byte),
     (s.rx link).sync = true → payload.length ≤ 300 → (s.rx link).buf ++ bytes = front ++ frameBytes kind ch payload →
     ((∀ x ∈ front, x = idleByte) ∨ (s.rx link).seeking = true ∧ ∀ x ∈ front, x ≠ startByte) →
     exec (.frameReceived link ⟨true, bytes⟩ us) s = exec (.frameReceived link ⟨true, frameBytes kind ch payload⟩ us)
       (s.setRx link { s.rx link with seeking := false, buf := [] }))

/-- A delivered AUDIO frame that does not enter a ring: dropped uncounted in INIT, counted for a bad channel number, stray under a
BLOCKED or DAMAGED entry, under a FAILED controller and outside CAPTURING, forwarded or counted as a bypass drop under a BYPASS
entry (R72, R146, R147, R150). A frame whose read finds the parity of the in-force copy wrong is routed as under a DAMAGED entry, stray,
after the entry has been dealt with: DAMAGED, or GOOD again by its pending copy, with a TABLE_PARITY detection, the take of the channel
force-stopped or its OPEN or REVIEWING letter closed (R139, R143, R148). -/
def Obligations.AudioDroppedStrayOrForwarded : Prop :=
  ∀ (s : State) (b : Byte) (seq : Word16) (xs : List Sample) (us : List Upset), Listening s .station → xs.length = 64 →
    let u := goodTaken s us .station
    (s.mem.ctrl = .init → exec (.audio b seq xs us) s = .next u) ∧
    (s.mem.ctrl ≠ .init → 48 ≤ b.toNat → exec (.audio b seq xs us) s = .next (u.countPart (PartCounters.addBadChannel 1))) ∧
    (∀ ch : Chan, s.mem.ctrl ≠ .init → b.toNat = ch.val → (s.upsets us).table[ch].damaged = true →
      exec (.audio b seq xs us) s = .next (u.count ch (ChanCounters.addStray 1))) ∧
    (∀ ch : Chan, s.mem.ctrl ≠ .init → b.toNat = ch.val → EntryWrong (s.upsets us) ch →
      exec (.audio b seq xs us) s = .next ((entryDamaged u ch).count ch (ChanCounters.addStray 1))) ∧
    (∀ (ch : Chan) (st : Settings), s.mem.ctrl ≠ .init → b.toNat = ch.val → EntryGood (s.upsets us) ch st →
      (st.mode = .blocked ∨ st.mode = .compress ∧ (s.mem.ctrl = .failed ∨ s.capture[ch].state ≠ .capturing) →
        exec (.audio b seq xs us) s = .next (u.count ch (ChanCounters.addStray 1))) ∧
      (st.mode = .bypass → s.pool.bypass.length < 64 → exec (.audio b seq xs us) s =
        .next { u with pool := { s.pool with
          bypass := s.pool.bypass ++ [{ chan := ch, isKey := false, payload := audioPayload seq xs }] } }) ∧
      (st.mode = .bypass → 64 ≤ s.pool.bypass.length →
        exec (.audio b seq xs us) s = .next (u.countPart (PartCounters.addBypassDrops 1))))

/-- A delivered AUDIO frame of a CAPTURING channel under a GOOD COMPRESS entry. With a skip of 0 to 8, room is made for the frame's samples and
for 64 zero samples for each missing frame: while there is too little, the oldest whole block is dropped and an OVERRUN gap entry stands for
it, or the OVERRUN entry just before it counts one more (RoomMade, OldestDropped; R75). The zeros and the frame's samples then stand behind
the samples the ring holds, the next number is expected, and the frame counts as accepted, the missing ones as concealed and the blocks dropped as
overruns (R72, R73, R75). The samples go into the partial block first and then into blocks of 256, and a block with a concealment's zero in it is
FILLED (R70, R72, R73). With a skip above 8, the partial block, if there is one, is removed and the break is marked by a SEQUENCE gap
entry or by 1 more in the count of a newest entry of that cause (BreakMarked, R74); room is then made, and the frame's samples begin a new block. A
frame whose resync or whose overrun drops would need a ninth gap entry is refused whole and counts as stray (R76). -/
def Obligations.AudioEntersTheRing : Prop :=
  (∀ (s : State) (ch : Chan) (b : Byte) (seq : Word16) (xs : List Sample) (us : List Upset) (st : Settings) (skip n : Nat)
     (r : List RingEntry),
     Listening s .station → xs.length = 64 → b.toNat = ch.val → s.mem.ctrl = .ready → EntryGood (s.upsets us) ch st →
     st.mode = .compress → s.capture[ch].state = .capturing →
     (s.capture[ch].expected = none ∧ skip = 0 ∨ ∃ e, s.capture[ch].expected = some e ∧ (seq - e).toNat = skip) → skip ≤ 8 →
     ringRoom s.capture[ch].ring ≤ 1024 → RoomMade (64 * (skip + 1)) n s.capture[ch].ring r →
     (8 < ringGaps r → exec (.audio b seq xs us) s = .next ((goodTaken s us .station).count ch (ChanCounters.addStray 1))) ∧
     (ringGaps r ≤ 8 → ∃ t, exec (.audio b seq xs us) s = .next t ∧
       ringSamples t.capture[ch].ring = ringSamples r ++ List.replicate (64 * skip) 0 ++ xs ∧
       ringGaps t.capture[ch].ring = ringGaps r ∧
       (∀ (whole : List RingEntry) (ys : List Sample) (f : Bool), (∀ e ∈ whole, e.serviceable = true) → ys.length < 256 →
         ys.length % 64 = 0 → r = whole ++ (if ys = [] then [] else [.block ys f false]) →
         t.capture[ch].ring = whole ++ filledBlocks
           (ys.map (fun y => (y, f)) ++ List.replicate (64 * skip) (0, true) ++ xs.map (fun x => (x, false)))) ∧
       t.capture[ch].state = .capturing ∧ t.capture[ch].expected = some (seq + 1) ∧
       t.mgmt.chanCounters[ch].accepted = satAdd s.mgmt.chanCounters[ch].accepted 1 ∧
       (0 < skip → t.mgmt.chanCounters[ch].concealed = satAdd s.mgmt.chanCounters[ch].concealed skip) ∧
       (0 < n → t.mgmt.chanCounters[ch].overruns = satAdd s.mgmt.chanCounters[ch].overruns n) ∧
       t.mgmt.chanCounters[ch].resyncs = s.mgmt.chanCounters[ch].resyncs ∧
       t.mgmt.chanCounters[ch].stray = s.mgmt.chanCounters[ch].stray ∧
       (∀ c : Chan, c ≠ ch → t.capture[c] = s.capture[c] ∧ t.mgmt.chanCounters[c] = s.mgmt.chanCounters[c]) ∧
       t = { goodTaken s us .station with capture := t.capture, mgmt := { s.mgmt with chanCounters := t.mgmt.chanCounters } })) ∧
  (∀ (s : State) (ch : Chan) (b : Byte) (seq e : Word16) (xs : List Sample) (us : List Upset) (st : Settings) (n : Nat)
     (marked r : List RingEntry),
     Listening s .station → xs.length = 64 → b.toNat = ch.val → s.mem.ctrl = .ready → EntryGood (s.upsets us) ch st →
     st.mode = .compress → s.capture[ch].state = .capturing → s.capture[ch].expected = some e → 8 < (seq - e).toNat →
     ringRoom s.capture[ch].ring ≤ 1024 → BreakMarked s.capture[ch].ring marked → RoomMade 64 n marked r →
     (8 < ringGaps r → exec (.audio b seq xs us) s = .next ((goodTaken s us .station).count ch (ChanCounters.addStray 1))) ∧
     (ringGaps r ≤ 8 → ∃ t, exec (.audio b seq xs us) s = .next t ∧
       t.capture[ch] = { s.capture[ch] with ring := r ++ [.block xs false false], expected := some (seq + 1) } ∧
       t.mgmt.chanCounters[ch].accepted = satAdd s.mgmt.chanCounters[ch].accepted 1 ∧
       t.mgmt.chanCounters[ch].resyncs = satAdd s.mgmt.chanCounters[ch].resyncs 1 ∧
       (0 < n → t.mgmt.chanCounters[ch].overruns = satAdd s.mgmt.chanCounters[ch].overruns n) ∧
       t.mgmt.chanCounters[ch].concealed = s.mgmt.chanCounters[ch].concealed ∧
       t.mgmt.chanCounters[ch].stray = s.mgmt.chanCounters[ch].stray ∧
       (∀ c : Chan, c ≠ ch → t.capture[c] = s.capture[c] ∧ t.mgmt.chanCounters[c] = s.mgmt.chanCounters[c]) ∧
       t = { goodTaken s us .station with capture := t.capture, mgmt := { s.mgmt with chanCounters := t.mgmt.chanCounters } }))

/-- A delivered KEY frame: dropped and counted where its channel has 16 replies and keys outstanding, counted for a bad channel
number, dropped in INIT, forwarded or counted as a bypass drop under a BYPASS entry, and otherwise handed to the Letter Controller, in
flight (R146, R147, R150, R159). One whose read finds the parity of the in-force copy wrong is handed to it too, marked as a key to
answer BLOCKED, after the entry has been dealt with: DAMAGED, or GOOD again by its pending copy, with a TABLE_PARITY detection, the take of
the channel force-stopped or its OPEN or REVIEWING letter closed (R139, R143, R148). -/
def Obligations.KeyFramesAreAdmittedAndRouted : Prop :=
  ∀ (s : State) (b code : Byte) (count : Word16) (us : List Upset), Listening s .station →
    let u := goodTaken s us .station
    (48 ≤ b.toNat → s.mem.ctrl ≠ .init → exec (.key b code count us) s = .next (u.countPart (PartCounters.addBadChannel 1))) ∧
    (∀ ch : Chan, b.toNat = ch.val → 16 ≤ s.station.replies[ch].length + s.station.inFlight[ch] →
      exec (.key b code count us) s = .next (u.countPart (PartCounters.addKeyOverruns 1))) ∧
    (∀ ch : Chan, b.toNat = ch.val → s.station.replies[ch].length + s.station.inFlight[ch] < 16 →
      (s.mem.ctrl = .init → exec (.key b code count us) s = .next u) ∧
      (∀ st, s.mem.ctrl ≠ .init → EntryGood (s.upsets us) ch st → st.mode = .bypass → s.pool.bypass.length < 64 →
        exec (.key b code count us) s = .next { u with pool := { s.pool with
          bypass := s.pool.bypass ++ [{ chan := ch, isKey := true, payload := keyPayload code count.toNat }] } }) ∧
      (∀ st, s.mem.ctrl ≠ .init → EntryGood (s.upsets us) ch st → st.mode = .bypass → 64 ≤ s.pool.bypass.length →
        exec (.key b code count us) s = .next (u.countPart (PartCounters.addBypassDrops 1))) ∧
      (let flying := { u with station := { u.station with inFlight := s.station.inFlight.set ch (s.station.inFlight[ch] + 1) } }
       let queued := fun (t : State) (spoilt : Bool) => { t with wires := { t.wires with
         keys := s.wires.keys.set ch (s.wires.keys[ch] ++ [{ code := code, count := count.toNat, spoilt := spoilt }]) } }
       (s.mem.ctrl ≠ .init →
         ((s.upsets us).table[ch].damaged = true ∨ ∃ st, EntryGood (s.upsets us) ch st ∧ st.mode ≠ .bypass) →
         exec (.key b code count us) s = .next (queued flying false)) ∧
       (s.mem.ctrl ≠ .init → EntryWrong (s.upsets us) ch →
         exec (.key b code count us) s = .next (queued (entryDamaged flying ch) true))))

/-- The delivered frames that a port deals with itself: PAUSE and GO set the flow state, and in the event of the GO that ends a PAUSE the Drain
Engine acts, where it may (R113, R158); a management request joins its queue or is
counted as dropped, and a frame of another kind or length is counted as bad (R165, R182, R183). That the bad-frame run is 0 behind
a frame so dropped, as R155 has left it, is log entry 35's reading. -/
def Obligations.PortsActOnTheirOwnFrames : Prop :=
  ∀ s : State,
    (Listening s .pool →
      let p := { s.pool with rx := { s.pool.rx with badRun := 0, seeking := false } }
      exec .pause s = .next { s with pool := { p with flow := .pause } } ∧
      (s.pool.flow = .go → exec .go s = .next { s with pool := p }) ∧
      (s.pool.flow = .pause → exec .go s = .next (drainActed { s with pool := { p with flow := .go } })) ∧
      (∀ payload : List Byte, 3 ≤ payload.length → payload.length ≤ 300 →
        (s.mgmt.queue.length < 4 → exec (.mgmtRequest payload) s =
          .next { s with pool := p, mgmt := { s.mgmt with queue := s.mgmt.queue ++ [requestOfPayload payload] } }) ∧
        (4 ≤ s.mgmt.queue.length → exec (.mgmtRequest payload) s =
          .next { s with pool := p, mgmt := { s.mgmt with part := s.mgmt.part.addMgmtDrops 1 } })) ∧
      (∀ (kind b : Byte) (payload : List Byte), poolKindFits kind payload.length = false → payload.length ≤ 300 →
        exec (.poolFrameDropped kind (b, payload)) s =
          .next { s with pool := p, mgmt := { s.mgmt with part := s.mgmt.part.addBad 1 .pool } })) ∧
    (Listening s .station →
      ∀ (kind b : Byte) (payload : List Byte), stationKindFits kind payload.length = false → payload.length ≤ 300 →
        exec (.stationFrameDropped kind (b, payload)) s =
          .next { s with station := { s.station with rx := { s.station.rx with badRun := 0, seeking := false } }
                         mgmt := { s.mgmt with part := s.mgmt.part.addBad 1 .station } })

/-- The station transmitter's choice at a frame boundary: the head reply of the first channel after the reply pointer that has one;
with no reply queued, the head audio frame of the first channel after the audio pointer; otherwise idle bytes (R161). -/
def Obligations.StationBoundaryChoosesInOrder : Prop :=
  ∀ s : State,
    (∀ (ch : Chan) (r : KeyReply) (rest : List KeyReply), s.station.replies[ch] = r :: rest →
      (∀ c : Chan, s.station.replies[c] ≠ [] → cyclicDist s.station.replyPtr ch ≤ cyclicDist s.station.replyPtr c) →
      exec .stationFrameBoundary s = .next { s with station := { s.station with
        replies := s.station.replies.set ch rest, replyPtr := ch, sending := some (.keyReply ch r) } }) ∧
    ((∀ c : Chan, s.station.replies[c] = []) →
      (∀ (ch : Chan) (f : ReviewFrame) (rest : List ReviewFrame), s.station.audio[ch] = f :: rest →
        (∀ c : Chan, s.station.audio[c] ≠ [] → cyclicDist s.station.audioPtr ch ≤ cyclicDist s.station.audioPtr c) →
        exec .stationFrameBoundary s = .next { s with station := { s.station with
          audio := s.station.audio.set ch rest, audioPtr := ch, sending := some (.reviewAudio ch f) } }) ∧
      ((∀ c : Chan, s.station.audio[c] = []) →
        exec .stationFrameBoundary s = .next { s with station := { s.station with sending := none } }))

/-- The pool transmitter's choice at a frame boundary: control queue, bypass queue, then the drain slot unless the link is paused;
when the control queue gains room, the owed notice of the highest precedence joins it, or else the held reply (R162, R166, R175). In the event
in which the held OK of a SOFT-RESET joins so, the reset is taken (R180, R181). Which of several wrong pending copies the reset makes a notice of,
and which it leaves as the context, is log entry 15's order, and that the detections name no letter is log entry 23's reading. -/
def Obligations.PoolBoundaryChoosesInOrder : Prop :=
  ∀ s : State,
    (∀ (f : ControlFrame) (rest : List ControlFrame), s.pool.control = f :: rest →
      (s.mgmt.owed = [] → s.mgmt.heldReply = none →
        exec .poolFrameBoundary s = .next { s with pool := { s.pool with control := rest, sending := some (.control f) } }) ∧
      (∀ n ∈ s.mgmt.owed, (∀ m ∈ s.mgmt.owed, m ≠ n → m.kind.precedence < n.kind.precedence) →
        exec .poolFrameBoundary s = .next { s with
          pool := { s.pool with control := rest ++ [.notice n], sending := some (.control f) }
          mgmt := { s.mgmt with owed := s.mgmt.owed.erase n } }) ∧
      (∀ r, s.mgmt.owed = [] → s.mgmt.heldReply = some r →
        (r.kind ≠ 0x14#8 ∨ r.status ≠ .ok → exec .poolFrameBoundary s = .next { s with
          pool := { s.pool with control := rest ++ [.reply r], sending := some (.control f) }
          mgmt := { s.mgmt with heldReply := none } }) ∧
        (r.kind = 0x14#8 → r.status = .ok → (∃ n, n < nLocations ∧ n ∉ s.mem.retired) → ∃ t, exec .poolFrameBoundary s = .next t ∧
          ResetTaken { s with pool := { s.pool with control := rest ++ [.reply r], sending := some (.control f) } } t))) ∧
    (s.pool.control = [] →
      (∀ (b : BypassFrame) (rest : List BypassFrame), s.pool.bypass = b :: rest →
        exec .poolFrameBoundary s = .next { s with pool := { s.pool with bypass := rest, sending := some (.bypass b) } }) ∧
      (s.pool.bypass = [] →
        (∀ r, s.pool.slot = some r → s.pool.flow = .go → s.pool.rx.sync = true →
          exec .poolFrameBoundary s = .next { s with pool := { s.pool with slot := none, sending := some (.drain r) } }) ∧
        (s.pool.slot = none ∨ s.pool.flow = .pause ∨ s.pool.rx.sync = false →
          exec .poolFrameBoundary s = .next { s with pool := { s.pool with sending := none } })))

/-! ### The keys -/

/-- What decides a key before its own rule, whatever the key (R9): BLOCKED under an entry that is not COMPRESS, or is DAMAGED, and for a key
whose own frame found the parity of the entry wrong, whatever the entry has become (R148); FAULT under a FAILED controller, for all but the
four motion keys and END-LETTER; and REFUSED for an unknown code (R182). A key whose evaluation itself finds the parity wrong is BLOCKED after
the entry has been dealt with: the take of the channel force-stopped, or its OPEN or REVIEWING letter closed (R143, R145). That a reply
that concerns no letter carries cursor 0 and length 0 is log entry 40's choice. -/
def Obligations.KeysDecidedBeforeTheirOwnRule : Prop :=
  ∀ (s : State) (us : List Upset) (ch : Chan) (k : Key), s.wires.keys[ch].head? = some k →
    ((s.upsets us).table[ch].damaged = true → exec (commandOf ch us k.code) s =
      .next (keyAnswered s us ch k .blocked (s.currentView ch)
        (match s.currentLetter ch with | some il => if il.2.phase = .opened then none else s.ctxs[ch].idle | none => s.ctxs[ch].idle))) ∧
    (EntryWrong (s.upsets us) ch →
      let x := entryDamaged (keyTaken s us ch s.ctxs[ch].idle) ch
      exec (commandOf ch us k.code) s = .next { x with
        station := stationReplied x.station ch (replyTo k .blocked (x.currentView ch))
        mgmt := { s.mgmt with chanCounters := s.mgmt.chanCounters.set ch (keyCounted s.mgmt.chanCounters[ch] true) } }) ∧
    (∀ st, EntryGood (s.upsets us) ch st →
      (st.mode ≠ .compress ∨ k.spoilt = true → exec (commandOf ch us k.code) s =
        .next (keyAnswered s us ch k .blocked (s.currentView ch) (idleAfter s ch st))) ∧
      (st.mode = .compress → k.spoilt = false → (∀ i l t, Current s ch i l → l.phase ≠ .finishing t) →
        (s.mem.ctrl = .failed → k.code ∉ [0x05#8, 0x06#8, 0x07#8, 0x08#8, 0x0A#8] →
          exec (commandOf ch us k.code) s = .next (keyAnswered s us ch k .fault (s.currentView ch) (idleAfter s ch st))) ∧
        (s.mem.ctrl ≠ .failed → k.code = 0x00#8 ∨ 0x10#8 ≤ k.code → exec (.unknownKeyCode ch us) s =
          .next (keyAnswered s us ch k .refused (s.currentView ch) (idleAfter s ch st)))))

/-- A key in FINISHING (R5): CANCEL-TAKE is TOO_LATE, any other key is held without a reply where the slot is empty and answered
BUSY where it is full, whatever the state of the controller. -/
def Obligations.KeysInFinishingAreHeld : Prop :=
  ∀ (s : State) (us : List Upset) (ch : Chan) (k : Key) (st : Settings) (i : LetterIx) (l : Letter) (t : Take),
    KeyWaits s us ch k st → st.mode = .compress → Current s ch i l → l.phase = .finishing t →
    (k.code = 0x04#8 → exec (.cancelTake ch us) s = .next (keyAnswered s us ch k .tooLate l.view s.ctxs[ch].idle)) ∧
    (k.code ≠ 0x04#8 →
      (s.ctxs[ch].held = none → exec (commandOf ch us k.code) s = .next { keyTaken s us ch s.ctxs[ch].idle with
        ctxs := s.ctxs.set ch { s.ctxs[ch] with held := some k } }) ∧
      (s.ctxs[ch].held ≠ none → exec (commandOf ch us k.code) s = .next (keyAnswered s us ch k .busy l.view s.ctxs[ch].idle)))

/-- The keys that need a letter and find no current one are answered NO_LETTER (R14, R16, R21, R22, R24, R29). The keys that the
state of the current letter alone refuses, with no effect but the restart of a running idle timer (R11, R16, R22, R28, R29); a
DISCARD that finds the arm clear is DISARMED (R29), and STOP on an OPEN letter is DONE (R14). That a reply that concerns no letter carries
cursor 0 and length 0 is log entry 40's choice. -/
def Obligations.KeysTheLettersStateDecides : Prop :=
  (∀ (s : State) (us : List Upset) (ch : Chan) (k : Key) (st : Settings) (h : HandsetKey), KeyWaits s us ch k st →
     st.mode = .compress → s.currentLetter ch = none → k.code = h.code →
     h ∈ [.stop, .cancelTake, .rewind, .forward, .toStart, .toEnd, .review, .endLetter, .discardArm, .discard] →
     (s.mem.ctrl ≠ .failed ∨ h ∈ [.rewind, .forward, .toStart, .toEnd, .endLetter]) →
     exec (h.command ch us) s = .next (keyAnswered s us ch k .noLetter LetterView.none s.ctxs[ch].idle)) ∧
  (∀ (s : State) (us : List Upset) (ch : Chan) (k : Key) (st : Settings) (i : LetterIx) (l : Letter) (h : HandsetKey),
     KeyWaits s us ch k st → st.mode = .compress → s.mem.ctrl ≠ .failed → Current s ch i l → k.code = h.code →
     (refusedIn h l.phase = true → exec (h.command ch us) s = .next (keyAnswered s us ch k .refused l.view (idleAfter s ch st))) ∧
     (h = .discard → s.ctxs[ch].armed = false → (∀ t, l.phase ≠ .finishing t) →
       exec (.discard ch us) s = .next (keyAnswered s us ch k .disarmed l.view (idleAfter s ch st))) ∧
     (h = .stop → l.phase = .opened → exec (.stop ch us) s = .next (keyAnswered s us ch k .done l.view (idleOf st))))

/-- REWIND, FORWARD, TO-START and TO-END on an OPEN letter move its cursor, clamped to 0 and to the length, and are DONE with the
new cursor; a REWIND or FORWARD of count 0 is REFUSED (R21). STOP and the motion keys on a REVIEWING letter stop the review: the
Player's context is IDLE and its reads unwanted, the letter is OPEN, the idle timer starts, and a motion key then moves the cursor
that the review has left (R14, R21, R96). A REWIND or FORWARD of count 0 stops the review too, moves no cursor and is REFUSED, which is
log entry 29's reading. -/
def Obligations.MotionKeysAndStopOfAReview : Prop :=
  (∀ (s : State) (us : List Upset) (ch : Chan) (k : Key) (st : Settings) (i : LetterIx) (l : Letter), KeyWaits s us ch k st →
     st.mode = .compress → Current s ch i l → l.phase = .opened →
     let moved : Nat → Host.Outcome State Fault Refusal := fun c => .next
       { keyAnswered s us ch k .done { cursor := c, length := l.length, number := l.number } (idleOf st) with
         letters := s.letters.set i (some { l with cursor := c }) }
     (k.code = 0x05#8 → 0 < k.count → exec (.rewind ch us) s = moved (l.cursor - k.count)) ∧
     (k.code = 0x06#8 → 0 < k.count → exec (.forward ch us) s = moved (min (l.cursor + k.count) l.length)) ∧
     (k.code = 0x07#8 → exec (.toStart ch us) s = moved 0) ∧
     (k.code = 0x08#8 → exec (.toEnd ch us) s = moved l.length) ∧
     (k.code = 0x05#8 → k.count = 0 → exec (.rewind ch us) s = .next (keyAnswered s us ch k .refused l.view (idleOf st))) ∧
     (k.code = 0x06#8 → k.count = 0 → exec (.forward ch us) s = .next (keyAnswered s us ch k .refused l.view (idleOf st)))) ∧
  (∀ (s : State) (us : List Upset) (ch : Chan) (k : Key) (st : Settings) (i : LetterIx) (l : Letter), KeyWaits s us ch k st →
     st.mode = .compress → Current s ch i l → l.phase = .reviewing →
     let stopped : Nat → (result : KeyResult := .done) → Host.Outcome State Fault Refusal := fun c result => .next
       { keyAnswered s us ch k result { cursor := c, length := l.length, number := l.number } (idleOf st) with
         letters := s.letters.set i (some { l with phase := .opened, cursor := c })
         player := s.player.set ch { s.player[ch] with review := none }
         mem := { s.mem with
           waiting := s.mem.waiting.map (fun a => { a with claim := a.claim.unwant ch })
           granted := s.mem.granted.map (fun a => { a with claim := a.claim.unwant ch }) } }
     (k.code = 0x03#8 → s.mem.ctrl ≠ .failed → exec (.stop ch us) s = stopped l.cursor) ∧
     (k.code = 0x05#8 → 0 < k.count → exec (.rewind ch us) s = stopped (l.cursor - k.count)) ∧
     (k.code = 0x06#8 → 0 < k.count → exec (.forward ch us) s = stopped (min (l.cursor + k.count) l.length)) ∧
     (k.code = 0x07#8 → exec (.toStart ch us) s = stopped 0) ∧
     (k.code = 0x08#8 → exec (.toEnd ch us) s = stopped l.length) ∧
     (k.code = 0x05#8 → k.count = 0 → exec (.rewind ch us) s = stopped l.cursor .refused) ∧
     (k.code = 0x06#8 → k.count = 0 → exec (.forward ch us) s = stopped l.cursor .refused))

/-- STOP, the motion keys and END-LETTER in RECORDING make the letter FINISHING and ask Capture to finish, without a reply: a STOP's
reply is owed at the commit, and any other of these keys is in the held-key slot (R14, R15). CANCEL-TAKE in RECORDING abandons the
take: Capture is told, the take's segment records and locations return, the letter is OPEN with its cursor and list unchanged, the
idle timer starts and the reply is DONE (R16). -/
def Obligations.StopAndCancelOfARecordingTake : Prop :=
  (∀ (s : State) (us : List Upset) (ch : Chan) (k : Key) (st : Settings) (i : LetterIx) (l : Letter) (t : Take), KeyWaits s us ch k st →
     st.mode = .compress → Current s ch i l → l.phase = .recording t →
     let finishing : Take → Option Key → Host.Outcome State Fault Refusal := fun x held => .next
       { keyTaken s us ch s.ctxs[ch].idle with
         letters := s.letters.set i (some { l with phase := .finishing x })
         ctxs := s.ctxs.set ch { s.ctxs[ch] with armed := false, held := held }
         wires := { s.wires with
           keys := s.wires.keys.set ch s.wires.keys[ch].tail
           captureRequests := s.wires.captureRequests.set ch (s.wires.captureRequests[ch] ++ [.finishing]) } }
     (k.code = 0x03#8 → s.mem.ctrl ≠ .failed → exec (.stop ch us) s = finishing { t with stopOwed := true } s.ctxs[ch].held) ∧
     (∀ h : HandsetKey, k.code = h.code → h ∈ [.rewind, .forward, .toStart, .toEnd, .endLetter] →
       exec (h.command ch us) s = finishing t (some k))) ∧
  (∀ (s : State) (us : List Upset) (ch : Chan) (k : Key) (st : Settings) (i : LetterIx) (l : Letter) (t : Take), KeyWaits s us ch k st →
     st.mode = .compress → s.mem.ctrl ≠ .failed → Current s ch i l → l.phase = .recording t → k.code = 0x04#8 →
     ∃ u, exec (.cancelTake ch us) s = .next u ∧
       u.letters = s.letters.set i (some { l with phase := .opened }) ∧
       u.freeSegs = s.freeSegs + t.list.length ∧
       u.mem = (s.handBackAll (listLocs t.list)).mem ∧
       u.ctxs = s.ctxs.set ch { s.ctxs[ch] with armed := false, idle := idleOf st } ∧
       u.wires = { s.wires with
         keys := s.wires.keys.set ch s.wires.keys[ch].tail
         captureRequests := s.wires.captureRequests.set ch (s.wires.captureRequests[ch] ++ [.cancelled]) } ∧
       u.station = stationReplied s.station ch (replyTo k .done l.view) ∧
       u.mgmt.chanCounters = s.mgmt.chanCounters.set ch (keyCounted s.mgmt.chanCounters[ch] false) ∧
       u.pool = s.pool ∧ u.capture = s.capture ∧ u.coder = s.coder ∧ u.player = s.player ∧ u.drain = s.drain)

/-- REVIEW on an OPEN letter: FAULT where its slot is DAMAGED, REFUSED with the cursor at the end, and otherwise the letter is
REVIEWING, the idle timer is stopped and the Player obtains the block at the cursor: here a block location, whose read it requests
(R22, R88, R89), beside a read of an earlier, stopped review of the channel too, which is log entry 41's choice. -/
def Obligations.ReviewStartsThePlayer : Prop :=
  ∀ (s : State) (us : List Upset) (ch : Chan) (k : Key) (st : Settings) (i : LetterIx) (l : Letter), KeyWaits s us ch k st →
    st.mode = .compress → s.mem.ctrl = .ready → Current s ch i l → l.phase = .opened → k.code = 0x09#8 →
    ((s.upsets us).profiles[l.slot].status = .damaged →
      exec (.review ch us) s = .next (keyAnswered s us ch k .fault l.view (idleOf st))) ∧
    ((s.upsets us).profiles[l.slot].status ≠ .damaged → l.cursor = l.length →
      exec (.review ch us) s = .next (keyAnswered s us ch k .refused l.view (idleOf st))) ∧
    (∀ (w : Nat × Nat) (hs : List Handle) (n : Nat), (s.upsets us).profiles[l.slot].status ≠ .damaged → l.cursor < l.length →
      locate l.list l.cursor = some w → l.list[w.1]? = some (.speech hs) → hs[w.2]? = some (.loc n) →
      exec (.review ch us) s = .next { keyAnswered s us ch k .done l.view none with
        letters := s.letters.set i (some { l with phase := .reviewing })
        player := s.player.set ch { s.player[ch] with
          review := some { letter := i, play := none, next := some (.obtaining l.cursor), walk := nextWalk l.list w, pace := false, late := false } }
        mem := { s.mem with waiting := s.mem.waiting ++
          [{ claim := .playerRead ch true { number := l.number, chan := ch, pos := l.cursor }, loc := n }] } }) ∧
    (∀ (w : Nat × Nat) (d : Nat), (s.upsets us).profiles[l.slot].status ≠ .damaged → l.cursor < l.length →
      locate l.list l.cursor = some w → l.list[w.1]? = some (.silence d) → s.station.audio[ch].length < 8 →
      ∃ t, exec (.review ch us) s = .next t ∧
        t.letters = s.letters.set i (some { l with phase := .reviewing }) ∧
        (∃ r, t.player[ch].review = some r ∧ r.letter = i ∧ r.pace = true ∧
          r.play = some { audio := { pos := l.cursor, content := .silence, cond := Conditions.clear,
                                     samples := List.replicate 256 0 }, sent := 1 }) ∧
        t.station.audio[ch] = s.station.audio[ch] ++ [{ seq := s.player[ch].seq, pos := l.cursor, index := 0, content := .silence,
                                                        cond := Conditions.clear, samples := List.replicate 64 0 }])

/-- END-LETTER on an OPEN letter closes it: with a length above 0 it joins the drain queue with a new ticket and is the last-closed
letter, and in the same event the Drain Engine acts on it, where it may: a drain start where nothing is delivered, or the switch to an URGENT
letter (R103, R109); with length 0 it is freed and its reply is EMPTY (R24, R25, R98, R99). On a REVIEWING letter the review is stopped first (R24, R96).
-/
def Obligations.EndLetterClosesTheLetter : Prop :=
  ∀ (s : State) (us : List Upset) (ch : Chan) (k : Key) (st : Settings) (i : LetterIx) (l : Letter), KeyWaits s us ch k st →
    st.mode = .compress → Current s ch i l → k.code = 0x0A#8 →
    let answered := keyAnswered s us ch k (closedReply l).1 (closedReply l).2 none
    (l.phase = .opened → exec (.endLetter ch us) s = .next (letterClosed answered ch i l)) ∧
    (l.phase = .reviewing → exec (.endLetter ch us) s = .next (letterClosed (reviewStopped answered ch) ch i l))

/-- URGENT-ON and URGENT-OFF set the class of the current letter, or of a last-closed letter that is QUEUED, which then takes its place in the
other class: the Drain Engine acts on it in the same event, where it may, as on an arrival (R100, R109). They are TOO_LATE for
one that is gone, DRAINING or SUSPENDED, and NO_LETTER where there is none (R27, R100). RECALL withdraws a QUEUED last-closed
letter: it leaves the queue, its ticket is dropped, and it is OPEN and current with its cursor at its length and everything else it
holds unchanged; TOO_LATE for one that is gone, DRAINING or SUSPENDED, NO_LETTER where there is none (R28, R100). Under a FAILED
controller each of these keys is answered FAULT and has no effect, a QUEUED last-closed letter or none (R9, R121); log entry 32 says how
that stands beside R117. That a reply that concerns no letter carries cursor 0 and length 0 is log entry 40's choice. -/
def Obligations.ClassKeysAndRecall : Prop :=
  (∀ (s : State) (us : List Upset) (ch : Chan) (k : Key) (st : Settings) (h : HandsetKey) (c : Priority), KeyWaits s us ch k st →
     st.mode = .compress → s.mem.ctrl ≠ .failed → k.code = h.code →
     (h = .urgentOn ∧ c = .urgent ∨ h = .urgentOff ∧ c = .routine) →
     (∀ i l, Current s ch i l → (∀ t, l.phase ≠ .finishing t) →
       exec (h.command ch us) s = .next { keyAnswered s us ch k .done l.view (idleAfter s ch st) with
         letters := s.letters.set i (some { l with cls := c }) }) ∧
     (s.ctxs[ch].current = none →
       (s.ctxs[ch].lastClosed = none →
         exec (h.command ch us) s = .next (keyAnswered s us ch k .noLetter LetterView.none s.ctxs[ch].idle)) ∧
       (∀ i n, s.ctxs[ch].lastClosed = some (i, n) →
         (∀ l ticket, s.letters[i] = some l → l.number = n → l.phase = .queued ticket →
           let answered := keyAnswered s us ch k .done l.view s.ctxs[ch].idle
           (l.cls = c → exec (h.command ch us) s = .next answered) ∧
           (l.cls ≠ c → exec (h.command ch us) s =
             .next (queueGrown { answered with letters := s.letters.set i (some { l with cls := c }) }))) ∧
         (∀ l ticket, s.letters[i] = some l → l.number = n → l.phase = .draining ticket ∨ l.phase = .suspended ticket →
           exec (h.command ch us) s = .next (keyAnswered s us ch k .tooLate l.view s.ctxs[ch].idle)) ∧
         ((∀ l, s.letters[i] = some l → l.number ≠ n) →
           exec (h.command ch us) s =
             .next (keyAnswered s us ch k .tooLate { cursor := 0, length := 0, number := n } s.ctxs[ch].idle))))) ∧
  (∀ (s : State) (us : List Upset) (ch : Chan) (k : Key) (st : Settings), KeyWaits s us ch k st → st.mode = .compress →
     s.mem.ctrl ≠ .failed → s.ctxs[ch].current = none → k.code = 0x0D#8 →
     (s.ctxs[ch].lastClosed = none →
       exec (.recall ch us) s = .next (keyAnswered s us ch k .noLetter LetterView.none s.ctxs[ch].idle)) ∧
     (∀ i n, s.ctxs[ch].lastClosed = some (i, n) →
       (∀ l ticket, s.letters[i] = some l → l.number = n → l.phase = .queued ticket →
         exec (.recall ch us) s = .next
           { keyAnswered s us ch k .done { cursor := l.length, length := l.length, number := l.number } (idleOf st) with
             letters := s.letters.set i (some { l with phase := .opened, cursor := l.length })
             ctxs := s.ctxs.set ch { s.ctxs[ch] with current := some i, lastClosed := none, armed := false, idle := idleOf st }
             drain := { s.drain with issue := s.drain.issue.erase i } }) ∧
       (∀ l ticket, s.letters[i] = some l → l.number = n → l.phase = .draining ticket ∨ l.phase = .suspended ticket →
         exec (.recall ch us) s = .next (keyAnswered s us ch k .tooLate l.view s.ctxs[ch].idle)) ∧
       ((∀ l, s.letters[i] = some l → l.number ≠ n) →
         exec (.recall ch us) s =
           .next (keyAnswered s us ch k .tooLate { cursor := 0, length := 0, number := n } s.ctxs[ch].idle)))) ∧
  (∀ (s : State) (us : List Upset) (ch : Chan) (k : Key) (st : Settings), KeyWaits s us ch k st → st.mode = .compress →
     s.mem.ctrl = .failed → s.ctxs[ch].current = none → ∀ h ∈ [HandsetKey.urgentOn, .urgentOff, .recall], k.code = h.code →
       exec (h.command ch us) s =
         .next (keyAnswered s us ch k .fault { cursor := 0, length := 0, number := 0 } s.ctxs[ch].idle))

/-- DISCARD-ARM on an OPEN letter sets the arm; DISCARD on an OPEN letter that finds it set frees the letter: its locations, segment
records and profile reference return, the channel has no current letter, and the last-closed letter is unchanged (R6, R26, R29). -/
def Obligations.DiscardTakesTwoKeys : Prop :=
  ∀ (s : State) (us : List Upset) (ch : Chan) (k : Key) (st : Settings) (i : LetterIx) (l : Letter), KeyWaits s us ch k st →
    st.mode = .compress → s.mem.ctrl ≠ .failed → Current s ch i l → l.phase = .opened →
    (k.code = 0x0E#8 → exec (.discardArm ch us) s = .next { keyAnswered s us ch k .done l.view (idleOf st) with
      ctxs := s.ctxs.set ch { s.ctxs[ch] with armed := true, idle := idleOf st } }) ∧
    (k.code = 0x0F#8 → s.ctxs[ch].armed = true → ∃ t, exec (.discard ch us) s = .next t ∧
      t.letters = s.letters.set i none ∧ t.freeSegs = s.freeSegs + l.list.length ∧
      t.mem = (s.handBackAll (listLocs l.list)).mem ∧
      t.profiles = (s.upsets us).profiles.set l.slot
        { (s.upsets us).profiles[l.slot] with refs := (s.upsets us).profiles[l.slot].refs - 1 } ∧
      t.ctxs = s.ctxs.set ch { s.ctxs[ch] with current := none, armed := false, idle := none } ∧
      t.wires = { s.wires with
        keys := s.wires.keys.set ch s.wires.keys[ch].tail
        noLive := s.wires.noLive.set ch (s.wires.noLive[ch] + 1) } ∧
      t.station = stationReplied s.station ch (replyTo k .done { cursor := 0, length := 0, number := l.number }) ∧
      t.mgmt.chanCounters = s.mgmt.chanCounters.set ch (keyCounted s.mgmt.chanCounters[ch] false) ∧
      t.drain = s.drain ∧ t.pool = s.pool ∧ t.capture = s.capture ∧ t.coder = s.coder ∧ t.player = s.player)

/-- A RECORD key that no check refuses starts a take: on the OPEN current letter (R11), or, with none, on a letter that it opens in
the lowest-numbered FREE record under the entry's settings and the slot's parameters, with the counter's number (R3, R10, R12, R79);
that the Coder notes the letter's number is the model's own (log entry 23). Where the Coder's read of the slot at the start finds its parity
wrong, the slot is damaged and the channel withheld (R55, R83). Requests to the channel's ring that still wait are taken before the take
starts, each as by its own command, which is log entry 6's reading of R71.
The checks of a RECORD key in their order, each answered as the tables of R10 and R11 say, with no effect but the restart of a
running idle timer (R10, R11); that a reply that concerns no letter carries cursor 0 and length 0 is log entry 40's choice. -/
def Obligations.RecordStartsATakeOrIsRefused : Prop :=
  (∀ (s : State) (us : List Upset) (ch : Chan) (k : Key) (st : Settings) (h : HandsetKey) (mode : TakeMode), KeyWaits s us ch k st →
     st.mode = .compress → s.mem.ctrl = .ready → k.code = h.code →
     (h = .recordInsert ∧ mode = .insert ∨ h = .recordOverwrite ∧ mode = .overwrite) →
     s.reserve < s.freeSegs → s.mem.free ≠ [] →
     let serial := (s.ctxs[ch].takeSerial + 1) % 256
     let take := fun (c : Nat) => Phase.recording
       { mode := mode, start := c, list := [], serial := serial, stopOwed := false, closeAtCommit := false, causes := [] }
     let started := fun (t : State) (k : Slot) (number : Nat) =>
       let ok := t.profiles[k].parityOk
       { (if ok then t else slotDamaged t k number ch none) with
         capture := s.capture.set ch { s.capture[ch] with state := .capturing, expected := none }
         coder := { s.coder with
           chans := s.coder.chans.set ch { serial := serial, number := number, slot := k, detector := .talk, halted := false,
                                           carry := if ok then t.profiles[k].contents.kInit else s.coder.chans[ch].carry, withheld := !ok } } }
     (∀ i l, Current s ch i l → l.phase = .opened → (s.upsets us).profiles[l.slot].status = .ready →
       (if mode = .insert then l.length else l.cursor) < l.maxDur → s.wires.captureRequests[ch] = [] →
       exec (h.command ch us) s = .next (started { keyAnswered s us ch k .done l.view none with
         letters := s.letters.set i (some { l with phase := take l.cursor })
         ctxs := s.ctxs.set ch { s.ctxs[ch] with armed := false, idle := none, takeSerial := serial } } l.slot l.number)) ∧
     (∀ i : LetterIx, s.ctxs[ch].current = none → s.letters[i] = none → (∀ j : LetterIx, j < i → s.letters[j] ≠ none) →
       (s.upsets us).profiles[st.slot].status = .ready → s.wires.captureRequests[ch] = [] → s.mgmt.letterCounter ∉ s.numbersHeld →
       let P := (s.upsets us).profiles[st.slot]
       let a := keyAnswered s us ch k .done { cursor := 0, length := 0, number := s.mgmt.letterCounter } none
       exec (h.command ch us) s = .next (started { a with
         letters := s.letters.set i (some
           { number := s.mgmt.letterCounter, chan := ch, author := st.author, cls := st.cls, slot := st.slot, generation := P.generation,
             w := P.contents.w, cap := P.contents.cap, maxDur := st.maxDur, cursor := 0, list := [], phase := take 0 })
         profiles := (s.upsets us).profiles.set st.slot { P with refs := P.refs + 1 }
         ctxs := s.ctxs.set ch { s.ctxs[ch] with current := some i, armed := false, idle := none, takeSerial := serial }
         mgmt := { a.mgmt with letterCounter := advance32 s.mgmt.letterCounter } } st.slot s.mgmt.letterCounter)) ∧
     (∀ q rest, s.wires.captureRequests[ch] = q :: rest →
       ((∃ i l, Current s ch i l ∧ l.phase = .opened ∧ (s.upsets us).profiles[l.slot].status = .ready ∧
           (if mode = .insert then l.length else l.cursor) < l.maxDur) ∨
         (s.ctxs[ch].current = none ∧ (∃ i : LetterIx, s.letters[i] = none) ∧ (s.upsets us).profiles[st.slot].status = .ready)) →
       ∃ t, exec (match q with | .finishing => .takeFinishing ch | _ => .ringEmptying ch) s = .next t ∧
         exec (h.command ch us) s = exec (h.command ch us) t)) ∧
  (∀ (s : State) (us : List Upset) (ch : Chan) (k : Key) (st : Settings) (h : HandsetKey), KeyWaits s us ch k st →
     st.mode = .compress → s.mem.ctrl ≠ .failed → k.code = h.code → (h = .recordInsert ∨ h = .recordOverwrite) →
     (s.ctxs[ch].current = none →
       let status := (s.upsets us).profiles[st.slot].status
       let answered := fun (r : KeyResult) => exec (h.command ch us) s = .next (keyAnswered s us ch k r LetterView.none s.ctxs[ch].idle)
       ((∀ i : LetterIx, s.letters[i] ≠ none) → answered .full) ∧
       ((∃ i : LetterIx, s.letters[i] = none) →
         (status = .empty → answered .notReady) ∧ (status = .damaged → answered .fault) ∧
         (status = .ready → s.freeSegs ≤ s.reserve → answered .full) ∧
         (status = .ready → s.reserve < s.freeSegs → s.mem.free = [] → answered .full))) ∧
     (∀ i l, Current s ch i l → l.phase = .opened →
       let status := (s.upsets us).profiles[l.slot].status
       let answered := fun (r : KeyResult) => exec (h.command ch us) s = .next (keyAnswered s us ch k r l.view (idleOf st))
       (status = .damaged → answered .fault) ∧
       (status ≠ .damaged → l.maxDur ≤ (if h = .recordInsert then l.length else l.cursor) → answered .full) ∧
       (status ≠ .damaged → s.freeSegs ≤ s.reserve ∨ s.mem.free = [] → answered .full)))

/-! ### Management requests -/

/-- A head request whose kind is unknown or whose length does not fit is answered BAD_REQUEST whatever the controller does; one of a
known kind is answered STARTING in INIT and has no effect, whatever its kind (R166). -/
def Obligations.BadRequestsAndRequestsInInit : Prop :=
  ∀ (s : State) (r : Request),
    (s.mgmt.idle = true → s.mgmt.queue.head? = some r → r.fits = false →
      exec .badRequest s = .next (requestAnswered s r .badRequest [])) ∧
    (∀ (kind : Byte) (c : Instr), (kind, c) ∈ requestCommands → RequestAt s kind r → s.mem.ctrl = .init →
      exec c s = .next (requestAnswered s r .starting []))

/-- IDENTIFY, READ-PROFILE, READ-FAULTS and READ-COUNTERS are answered with the values they read, or BAD_FIELD, and change nothing
but the request queue and the reply's place (R53, R167, R176, R179). READ-CHANNEL, READ-LETTER and LIST-LETTERS are answered with
the values they read, NOT_FOUND or BAD_FIELD, and change nothing but the request queue and the reply's place (R141, R168, R169). The value
of the serial number is free (log entry 1), and that READ-LETTER's CAP has 2 bytes and LIST-LETTERS' entries no count byte of their own is
log entry 22's choice. -/
def Obligations.ReadRequestsAreAnswered : Prop :=
  (∀ (s : State) (r : Request), s.mem.ctrl ≠ .init →
     (RequestAt s 0x01#8 r → exec .identify s = .next (requestAnswered s r .ok
       ([0x0A#8, 0x48#8, 0x01#8, 0x00#8, 0x04#8, 0x00#8, 0x00#8, 0x30#8, 0x00#8, 0x60#8, 0x40#8, 0x00#8] ++
         byte8 Config.serialNumber.toNat))) ∧
     (∀ b : Byte, r.fields = [b] → RequestAt s 0x04#8 r →
       (16 ≤ b.toNat → exec .readProfile s = .next (requestAnswered s r .badField [])) ∧
       (∀ k : Slot, k.val = b.toNat → exec .readProfile s = .next (requestAnswered s r .ok
         (byte1 s.profiles[k].status.toCode ++ byte2 s.profiles[k].generation ++ byte1 s.profiles[k].refs ++
           (if s.profiles[k].status = .empty then List.replicate 145 0x00#8 else profileBytes s.profiles[k].contents))))) ∧
     (RequestAt s 0x0D#8 r → exec .readFaults s = .next (requestAnswered s r .ok
       (byte1 (s.mgmt.faults.corrected.seen.toNat + 2 * s.mgmt.faults.uncorrected.seen.toNat +
           4 * s.mgmt.faults.tableParity.seen.toNat + 8 * s.mgmt.faults.noResponse.seen.toNat) ++
         byte4 s.mgmt.faults.corrected.count ++ byte4 s.mgmt.faults.uncorrected.count ++ byte4 s.mgmt.faults.tableParity.count ++
         byte4 s.mgmt.faults.noResponse.count ++ contextBytes s.mgmt.faults.context))) ∧
     (∀ b : Byte, r.fields = [b] → RequestAt s 0x10#8 r →
       (∀ ch : Chan, b.toNat = ch.val →
         exec .readCounters s = .next (requestAnswered s r .ok s.mgmt.chanCounters[ch].bytes)) ∧
       (b = 0xFE#8 → exec .readCounters s = .next (requestAnswered s r .ok (s.mgmt.part.bytes ++
         byte4 (runsCount s.mem.free) ++ byte4 s.mem.retired.length ++ byte4 s.freeSegs ++ byte4 s.heldLetters.length))) ∧
       (48 ≤ b.toNat → b ≠ 0xFE#8 → exec .readCounters s = .next (requestAnswered s r .badField [])))) ∧
  (∀ (s : State) (r : Request), s.mem.ctrl ≠ .init →
     (∀ b : Byte, r.fields = [b] → RequestAt s 0x02#8 r →
       (48 ≤ b.toNat → exec .readChannel s = .next (requestAnswered s r .badField [])) ∧
       (∀ ch : Chan, b.toNat = ch.val →
         let answered := fun (last : Nat) => exec .readChannel s = .next (requestAnswered s r .ok
           (byte1 (if s.table[ch].damaged then 2 else 0) ++ settingsBytes s.table[ch].inForce.settings ++
             (match s.table[ch].pendingCopy with
               | none => List.replicate 10 0x00#8
               | some c => 0x01#8 :: settingsBytes c.settings) ++
             byte4 (match s.currentLetter ch with | some il => il.2.number | none => 0) ++ byte4 last))
         (s.ctxs[ch].lastClosed = none → answered 0) ∧
         (∀ i n, s.ctxs[ch].lastClosed = some (i, n) →
           (∀ l, s.letters[i] = some l → l.number = n → answered n) ∧ ((∀ l, s.letters[i] = some l → l.number ≠ n) → answered 0)))) ∧
     (RequestAt s 0x07#8 r →
       (fieldAt r.fields 0 4 = 0 ∨ (∀ (i : LetterIx) (l : Letter), s.letters[i] = some l → l.number ≠ fieldAt r.fields 0 4) →
         exec .readLetter s = .next (requestAnswered s r .notFound [])) ∧
       (∀ (i : LetterIx) (l : Letter), NumbersSound s → s.letters[i] = some l → l.number = fieldAt r.fields 0 4 →
         let fields := byte1 i.val ++ byte1 l.phase.toCode ++ byte1 l.chan.val ++ byte3 l.author ++ byte1 (classCode l.cls) ++
           byte1 l.slot.val ++ byte2 l.generation ++ byte1 l.w ++ byte2 l.cap ++ byte2 l.maxDur ++ byte2 l.cursor ++ byte2 l.length ++
           byte2 l.list.length ++ byte2 (placeholders l.list)
         (l.phase = .opened ∨ l.phase = .reviewing →
           exec .readLetter s = .next (requestAnswered s r .ok (fields ++ List.replicate 17 0x00#8))) ∧
         (∀ t, l.phase = .recording t ∨ l.phase = .finishing t → exec .readLetter s = .next (requestAnswered s r .ok
           (fields ++ (0x01#8 :: byte1 t.mode.toCode ++ byte2 t.start ++ byte2 t.len) ++ List.replicate 11 0x00#8))) ∧
         (∀ ticket, l.phase = .queued ticket → exec .readLetter s = .next (requestAnswered s r .ok
           (fields ++ List.replicate 6 0x00#8 ++ (0x01#8 :: byte4 ticket) ++ List.replicate 6 0x00#8))) ∧
         (∀ ticket d, l.phase = .draining ticket ∧ s.drain.delivery = some d ∨ l.phase = .suspended ticket ∧ s.drain.suspended = some d →
           d.letter = i → exec .readLetter s = .next (requestAnswered s r .ok (fields ++ List.replicate 6 0x00#8 ++
             (0x01#8 :: byte4 ticket) ++ (0x01#8 :: byte2 d.pos ++ byte2 d.body ++ [if d.abort then 0x01#8 else 0x00#8])))))) ∧
     (∀ order start : Byte, r.fields = [order, start] → RequestAt s 0x08#8 r →
       (95 < start.toNat ∨ 1 < order.toNat → exec .listLetters s = .next (requestAnswered s r .badField [])) ∧
       (start.toNat ≤ 95 → order.toNat ≤ 1 →
         let all := if order = 0x00#8 then s.heldLetters else s.issueLetters
         let selected := if order = 0x00#8 then s.heldLetters.filter (fun il => decide (start.toNat ≤ il.1.val))
           else s.issueLetters.drop start.toNat
         (selected.length ≤ 16 → exec .listLetters s =
           .next (requestAnswered s r .ok (byte1 all.length ++ selected.flatMap entryBytes ++ [0x00#8, 0x00#8]))) ∧
         (∀ x, 16 < selected.length → order = 0x00#8 → selected[15]? = some x → exec .listLetters s =
           .next (requestAnswered s r .ok (byte1 all.length ++ (selected.take 16).flatMap entryBytes ++ [0x01#8] ++
             byte1 (x.1.val + 1)))) ∧
         (16 < selected.length → order = 0x01#8 → exec .listLetters s =
           .next (requestAnswered s r .ok (byte1 all.length ++ (selected.take 16).flatMap entryBytes ++ [0x01#8] ++
             byte1 (start.toNat + 16)))))))

/-- WRITE-CHANNEL sets the in-force copy at once where the channel has no live letter or the entry is DAMAGED, which becomes GOOD,
and stages a pending copy otherwise; a field out of range is BAD_FIELD (R138, R140). That a channel whose no-live-letter notice is still
untaken has a live letter as the Channel Table sees it, so that a write is staged, is log entry 20's reading. -/
def Obligations.WriteChannelSetsOrStagesTheEntry : Prop :=
  ∀ (s : State) (r : Request), s.mem.ctrl ≠ .init → RequestAt s 0x03#8 r →
    (48 ≤ fieldAt r.fields 0 1 ∨ 2 < fieldAt r.fields 1 1 ∨ 15 < fieldAt r.fields 5 1 ∨ 1 < fieldAt r.fields 6 1 ∨
        fieldAt r.fields 7 2 = 0 ∨ 240 < fieldAt r.fields 9 1 →
      exec .writeChannel s = .next (requestAnswered s r .badField [])) ∧
    (∀ (ch : Chan) (st : Settings), r.fields = byte1 ch.val ++ settingsBytes st → st.author < 16777216 → 1 ≤ st.maxDur →
      st.maxDur ≤ 65535 → st.minutes ≤ 240 →
      (s.table[ch].damaged = false → (s.ctxs[ch].current ≠ none ∨ 0 < s.wires.noLive[ch]) →
        exec .writeChannel s = .next { requestAnswered s r .ok [0x01#8] with
          table := s.table.set ch { s.table[ch] with pendingCopy := some { settings := st, parityOk := true } } }) ∧
      (s.table[ch].damaged = true ∨ (s.ctxs[ch].current = none ∧ s.wires.noLive[ch] = 0) →
        exec .writeChannel s = .next { requestAnswered s r .ok [0x00#8] with
          table := s.table.set ch
            { damaged := false, inForce := { settings := st, parityOk := true }, pendingCopy := none } }))

/-- WRITE-PROFILE and CLEAR-PROFILE: IN_USE with a reference count above 0; a valid profile replaces the contents, READY under the
next generation, which the reply carries; an invalid one is BAD_FIELD; a clear leaves the slot EMPTY and its generation kept (R51,
R53). -/
def Obligations.ProfileWritesAndClears : Prop :=
  ∀ (s : State) (r : Request), s.mem.ctrl ≠ .init →
    (RequestAt s 0x05#8 r →
      (16 ≤ fieldAt r.fields 0 1 → exec .writeProfile s = .next (requestAnswered s r .badField [])) ∧
      (∀ k : Slot, fieldAt r.fields 0 1 = k.val → 0 < s.profiles[k].refs →
        exec .writeProfile s = .next (requestAnswered s r .inUse [])) ∧
      (∀ k : Slot, fieldAt r.fields 0 1 = k.val → s.profiles[k].refs = 0 → Profile.valid (profileField r.fields 1) = false →
        exec .writeProfile s = .next (requestAnswered s r .badField [])) ∧
      (∀ (k : Slot) (P : Profile), r.fields = byte1 k.val ++ profileBytes P → s.profiles[k].refs = 0 → Profile.valid P = true →
        let g := if s.profiles[k].generation = 65535 then 1 else s.profiles[k].generation + 1
        exec .writeProfile s = .next { requestAnswered s r .ok (byte2 g) with
          profiles := s.profiles.set k { status := .ready, contents := P, generation := g, refs := 0, parityOk := true } })) ∧
    (∀ b : Byte, r.fields = [b] → RequestAt s 0x06#8 r →
      (16 ≤ b.toNat → exec .clearProfile s = .next (requestAnswered s r .badField [])) ∧
      (∀ k : Slot, b.toNat = k.val →
        (0 < s.profiles[k].refs → exec .clearProfile s = .next (requestAnswered s r .inUse [])) ∧
        (s.profiles[k].refs = 0 → s.profiles[k].status = .empty → exec .clearProfile s = .next (requestAnswered s r .ok [])) ∧
        (s.profiles[k].refs = 0 → s.profiles[k].status ≠ .empty →
          exec .clearProfile s = .next { requestAnswered s r .ok [] with
            profiles := s.profiles.set k { status := .empty, contents := zeroProfile, generation := s.profiles[k].generation,
                                           refs := 0, parityOk := true } })))

/-- FORCE-CLOSE: BAD_FIELD for a channel above 47, NOT_FOUND without a current letter; a take is force-stopped with cause ENTRY, once, and
the letter will close at its commit; an OPEN letter is closed at once, after a LIMIT reply with its values, and a REVIEWING one after its
review is stopped. The reply gives the letter's number and what has become of it (R18, R19, R20, R25, R170). -/
def Obligations.ForceCloseStopsOrCloses : Prop :=
  ∀ (s : State) (r : Request) (b : Byte), s.mem.ctrl ≠ .init → RequestAt s 0x09#8 r → r.fields = [b] →
    (48 ≤ b.toNat → exec .forceClose s = .next (requestAnswered s r .badField [])) ∧
    (∀ ch : Chan, b.toNat = ch.val →
      (s.currentLetter ch = none → exec .forceClose s = .next (requestAnswered s r .notFound [])) ∧
      (∀ i l, Current s ch i l →
        let a := fun (outcome : Byte) => requestAnswered s r .ok (byte4 l.number ++ [outcome])
        (∀ t, l.phase = .recording t → exec .forceClose s = .next { a 0x00#8 with
            letters := s.letters.set i (some { l with phase := .finishing (takeStopped t .entry) })
            station := if t.causes.contains .entry then s.station else replied s.station ch (limitReply l .blocked .entry)
            wires := { s.wires with
              captureRequests := s.wires.captureRequests.set ch (s.wires.captureRequests[ch] ++ [.finishing]) } }) ∧
        (∀ t, l.phase = .finishing t → exec .forceClose s = .next { a 0x00#8 with
            letters := s.letters.set i (some { l with phase := .finishing (takeStopped t .entry) })
            station := if t.causes.contains .entry then s.station else replied s.station ch (limitReply l .blocked .entry) }) ∧
        (let limited := { a (if l.length = 0 then 0x02#8 else 0x01#8) with
           station := replied s.station ch (limitReply l .blocked .entry) }
         (l.phase = .opened → exec .forceClose s = .next (letterClosed limited ch i l)) ∧
         (l.phase = .reviewing → exec .forceClose s = .next (letterClosed (reviewStopped limited ch) ch i l)))))

/-- ABORT-LETTER: NOT_FOUND for a number no letter carries, WRONG_STATE for a live letter; a QUEUED letter leaves the issue list, is
freed and counts as abandoned; a DRAINING or SUSPENDED one has its abort pending, but WRONG_STATE under a FAILED controller (R114). The
pending abort of the DRAINING letter takes effect at once where the Drain Engine stands at a record boundary and may act (R102, R115).
-/
def Obligations.AbortLetterActsByState : Prop :=
  ∀ (s : State) (r : Request), s.mem.ctrl ≠ .init → RequestAt s 0x0A#8 r → NumbersSound s →
    ((∀ (i : LetterIx) (l : Letter), s.letters[i] = some l → l.number ≠ fieldAt r.fields 0 4) →
      exec .abortLetter s = .next (requestAnswered s r .notFound [])) ∧
    (∀ (i : LetterIx) (l : Letter), s.letters[i] = some l → l.number = fieldAt r.fields 0 4 →
      (l.phase.ticket? = none → exec .abortLetter s = .next (requestAnswered s r .wrongState [])) ∧
      (∀ ticket, l.phase = .queued ticket → ∃ t, exec .abortLetter s = .next t ∧
        t.letters = s.letters.set i none ∧ t.drain = { s.drain with issue := s.drain.issue.erase i } ∧
        t.freeSegs = s.freeSegs + l.list.length ∧ t.mem = (s.handBackAll (listLocs l.list)).mem ∧
        t.profiles = s.profiles.set l.slot { s.profiles[l.slot] with refs := s.profiles[l.slot].refs - 1 } ∧
        t.mgmt.part.lettersAbandoned = satAdd s.mgmt.part.lettersAbandoned 1 ∧
        t.pool = (requestAnswered s r .ok []).pool ∧ t.mgmt.queue = s.mgmt.queue.tail ∧
        t.ctxs = s.ctxs ∧ t.station = s.station ∧ t.table = s.table ∧ t.wires = s.wires) ∧
      (∀ ticket, l.phase = .draining ticket ∨ l.phase = .suspended ticket → s.mem.ctrl = .failed →
        exec .abortLetter s = .next (requestAnswered s r .wrongState [])) ∧
      (∀ ticket, l.phase = .draining ticket → s.mem.ctrl = .ready →
        exec .abortLetter s = .next (drainActed { requestAnswered s r .ok [] with
          drain := { s.drain with delivery := s.drain.delivery.map (fun d => { d with abort := true }) } })) ∧
      (∀ ticket, l.phase = .suspended ticket → s.mem.ctrl = .ready →
        exec .abortLetter s = .next { requestAnswered s r .ok [] with
          drain := { s.drain with suspended := s.drain.suspended.map (fun d => { d with abort := true }) } }))

/-- HOLD-DRAIN sets HOLD. RELEASE-DRAIN clears it where it is set, and the Drain Engine acts at once, where it may: it takes a drain start, or
acts on a pending abort or a due suspension at the record boundary it stands at (R103, R109, R112, R115); where HOLD is clear already it
changes nothing. SET-PATROL sets the patrol enable or is BAD_FIELD, and CLEAR-COUNTERS sets the counters of its scope to 0 or is BAD_FIELD
(R172, R179). Nothing else changes but the request queue and the reply's place. -/
def Obligations.HoldPatrolAndCounterRequests : Prop :=
  ∀ (s : State) (r : Request), s.mem.ctrl ≠ .init →
    (RequestAt s 0x0B#8 r → exec .holdDrain s =
      .next { requestAnswered s r .ok [] with drain := { s.drain with hold := true } }) ∧
    (RequestAt s 0x0C#8 r →
      (s.drain.hold = true → exec .releaseDrain s =
        .next (drainActed { requestAnswered s r .ok [] with drain := { s.drain with hold := false } })) ∧
      (s.drain.hold = false → exec .releaseDrain s = .next (requestAnswered s r .ok []))) ∧
    (∀ b : Byte, r.fields = [b] → RequestAt s 0x13#8 r →
      let a := requestAnswered s r .ok []
      (b = 0x00#8 → exec .setPatrol s = .next { a with mgmt := { a.mgmt with patrolOn := false } }) ∧
      (b = 0x01#8 → exec .setPatrol s = .next { a with mgmt := { a.mgmt with patrolOn := true } }) ∧
      (1 < b.toNat → exec .setPatrol s = .next (requestAnswered s r .badField []))) ∧
    (∀ b : Byte, r.fields = [b] → RequestAt s 0x11#8 r →
      let a := requestAnswered s r .ok []
      (∀ ch : Chan, b.toNat = ch.val → exec .clearCounters s = .next { a with
        mgmt := { a.mgmt with chanCounters := s.mgmt.chanCounters.set ch ChanCounters.zero } }) ∧
      (b = 0xFE#8 → exec .clearCounters s = .next { a with mgmt := { a.mgmt with part := PartCounters.zero } }) ∧
      (b = 0xFF#8 → exec .clearCounters s = .next { a with
        mgmt := { a.mgmt with part := PartCounters.zero, chanCounters := Vector.replicate 48 ChanCounters.zero } }) ∧
      (48 ≤ b.toNat → b.toNat < 0xFE → exec .clearCounters s = .next (requestAnswered s r .badField [])))

/-- SET-LETTER-BASE: 0 is BAD_FIELD; with a letter that is not FREE the reply is WRONG_STATE and the counter unchanged; otherwise
the counter is set, the next letter opened takes the value, and SOFT-RESET keeps the counter (R171). -/
def Obligations.SetLetterBaseSetsTheCounter : Prop :=
  (∀ (s : State) (r : Request), s.mem.ctrl ≠ .init → RequestAt s 0x12#8 r →
    (fieldAt r.fields 0 4 = 0 → exec .setLetterBase s = .next (requestAnswered s r .badField [])) ∧
    (fieldAt r.fields 0 4 ≠ 0 → (∃ i : LetterIx, s.letters[i] ≠ none) →
      exec .setLetterBase s = .next (requestAnswered s r .wrongState [])) ∧
    (fieldAt r.fields 0 4 ≠ 0 → (∀ i : LetterIx, s.letters[i] = none) →
      let a := requestAnswered s r .ok []
      let t := { a with mgmt := { a.mgmt with letterCounter := fieldAt r.fields 0 4 } }
      exec .setLetterBase s = .next t ∧ t.nextNumber = fieldAt r.fields 0 4)) ∧
  (∀ (s : State) (r : Request), s.mem.ctrl ≠ .init → RequestAt s 0x14#8 r → s.pool.control.length < 8 →
    ∃ t, exec .softReset s = .next t ∧ t.mgmt.letterCounter = s.mgmt.letterCounter) ∧
  (∀ (s : State) (r : Reply) (f : ControlFrame) (rest : List ControlFrame), s.mgmt.heldReply = some r → r.kind = 0x14#8 → r.status = .ok →
    s.pool.control = f :: rest → s.mgmt.owed = [] →
    ∃ t, exec .poolFrameBoundary s = .next t ∧ t.mgmt.letterCounter = s.mgmt.letterCounter)

/-- CLEAR-FAULTS clears exactly the kinds its mask names: their seen flags, counts and owed notices, and the context where it is of
such a kind; a mask with any other bit is BAD_FIELD and clears nothing (R176). -/
def Obligations.ClearFaultsClearsTheKindsNamed : Prop :=
  ∀ (s : State) (r : Request) (b : Byte), s.mem.ctrl ≠ .init → RequestAt s 0x0E#8 r → r.fields = [b] →
    (16 ≤ b.toNat → exec .clearFaults s = .next (requestAnswered s r .badField [])) ∧
    (b.toNat < 16 → ∃ t, exec .clearFaults s = .next t ∧
      (∀ k : FaultKind, t.mgmt.faults.tally k =
        if b.toNat.testBit (k.toCode - 1) then { seen := false, count := 0 } else s.mgmt.faults.tally k) ∧
      t.mgmt.faults.context = s.mgmt.faults.context.filter (fun c => !b.toNat.testBit (c.kind.toCode - 1)) ∧
      t.mgmt.owed = s.mgmt.owed.filter (fun n => !b.toNat.testBit (n.kind.toCode - 1)) ∧
      (let a := requestAnswered s r .ok []
       t = { a with mgmt := { a.mgmt with faults := t.mgmt.faults, owed := t.mgmt.owed } }))

/-- SET-NOTICES sets the level, withdraws the owed notices the new level does not announce, and makes no notice; any value but the
four levels is BAD_FIELD. The level is SERIOUS after power-on and is kept across SOFT-RESET (R177). -/
def Obligations.SetNoticesSetsTheLevel : Prop :=
  (∀ (s : State) (r : Request) (b : Byte), s.mem.ctrl ≠ .init → RequestAt s 0x0F#8 r → r.fields = [b] →
    (3 < b.toNat → exec .setNotices s = .next (requestAnswered s r .badField [])) ∧
    (∀ lv : NoticeLevel, (b, lv) ∈ [(0x00#8, NoticeLevel.off), (0x01#8, .fatal), (0x02#8, .serious), (0x03#8, .all)] →
      let a := requestAnswered s r .ok []
      exec .setNotices s = .next { a with
        mgmt := { a.mgmt with level := lv, owed := s.mgmt.owed.filter (fun n => lv.announces n.kind) } })) ∧
  (∀ s : State, ∃ t, exec .powerOn s = .next t ∧ t.mgmt.level = .serious) ∧
  (∀ (s : State) (r : Request), s.mem.ctrl ≠ .init → RequestAt s 0x14#8 r → s.pool.control.length < 8 →
    ∃ t, exec .softReset s = .next t ∧ t.mgmt.level = s.mgmt.level) ∧
  (∀ (s : State) (r : Reply) (f : ControlFrame) (rest : List ControlFrame), s.mgmt.heldReply = some r → r.kind = 0x14#8 → r.status = .ok →
    s.pool.control = f :: rest → s.mgmt.owed = [] → ∃ t, exec .poolFrameBoundary s = .next t ∧ t.mgmt.level = s.mgmt.level)

/-- SOFT-RESET is answered before it acts: where its OK reply finds room in the control queue, the reply joins and the reset is taken in that
event; otherwise the reply is held (R166, R180). RESET_EVENT is the event in which the OK reply joins and the reset is taken: the execution of
the SOFT-RESET, or, with the reply held and no notice owed, the frame boundary that gives the room. That the table's row names this event a
second time is the model's reading (log entry 5); where no reset is due it changes nothing. The reset gives every
block the value of the table of R181, applies every pending copy, one with wrong parity with its detection in the new Fault Record, and keeps
the retired list, the weak marks, the reply, audio, control and bypass queues, the drain slot and the letter number counter (R123, R139,
R164, R180, R181). Which of several such copies makes the notice, and which is left as the context, is log entry 15's order, and that the
detections name no letter is log entry 23's reading. It leaves the queue of the commands that wait, which is the model's own (log entry 2). -/
def Obligations.SoftResetAndTheResetEvent : Prop :=
  (∀ (s : State) (r : Request), s.mem.ctrl ≠ .init → RequestAt s 0x14#8 r →
     let reply : Reply := { kind := 0x14#8, tag := r.tag, status := .ok, fields := [] }
     (8 ≤ s.pool.control.length → exec .softReset s = .next { s with
       mgmt := { s.mgmt with queue := s.mgmt.queue.tail, heldReply := some reply } }) ∧
     (s.pool.control.length < 8 → (∃ n, n < nLocations ∧ n ∉ s.mem.retired) → ∃ t, exec .softReset s = .next t ∧
       ResetTaken { s with pool := { s.pool with control := s.pool.control ++ [.reply reply] } } t)) ∧
  (∀ (s : State) (r : Reply) (us : List Upset), s.mgmt.heldReply = some r → r.kind = 0x14#8 → r.status = .ok →
     (s.mgmt.owed = [] → (∃ n, n < nLocations ∧ n ∉ s.mem.retired) → ∃ t, exec (.resetEvent us) s = .next t ∧
       (s.pool.control.length < 8 →
         ResetTaken { s.upsets us with pool := { s.pool with control := s.pool.control ++ [.reply r] } } t) ∧
       (∀ f rest, 8 ≤ s.pool.control.length → s.pool.control = f :: rest →
         exec .poolFrameBoundary (s.upsets us) = .next t ∧
         ResetTaken { s.upsets us with pool := { s.pool with control := rest ++ [.reply r], sending := some (.control f) } } t)) ∧
     (s.mgmt.owed ≠ [] → exec (.resetEvent us) s = .next s)) ∧
  (∀ (s : State) (us : List Upset), s.mgmt.heldReply = none →
     (∀ r, RequestAt s 0x14#8 r → s.mem.ctrl ≠ .init → s.pool.control.length < 8 →
       exec (.resetEvent us) s = exec .softReset (s.upsets us)) ∧
     ((s.mem.ctrl = .init ∨ 8 ≤ s.pool.control.length ∨ ∀ r, ¬RequestAt s 0x14#8 r) → exec (.resetEvent us) s = .next s))

/-! ### Timers -/

/-- IDLE_EXPIRY closes an OPEN current letter whose idle timer runs as END-LETTER would, and an unsolicited TIMEOUT reply tells of
it: DONE where it joined the queue, EMPTY where it was freed (R7, R24, R25). -/
def Obligations.IdleExpiryClosesTheLetter : Prop :=
  ∀ (s : State) (ch : Chan) (i : LetterIx) (l : Letter), Current s ch i l → l.phase = .opened → s.ctxs[ch].idle ≠ none →
    exec (.idleExpiry ch) s = .next { letterClosed s ch i l with
      station := replied s.station ch { code := 0x80#8, result := (closedReply l).1, cause := none, cursor := (closedReply l).2.cursor,
                                        length := (closedReply l).2.length, number := (closedReply l).2.number } }

/-- PACE_EXPIRY of a review: the next frame of the play block goes out, or is dropped and counted where eight frames wait, and the sequence
number advances (R92, R93, R160); with frame 3 the cursor stands behind the block, a READY next block takes its place, an OBTAINING one
leaves no play block, with no next block the play block is kept, and the block at the walk place is obtained where the next-block field is
free (R89, R94); with no play block the review is late (R93). After the last block of the letter the review ends: the letter is OPEN with its
idle timer started by a read of the entry, which may find its parity wrong, and the REVIEW reply goes out, behind a LIMIT reply
where the letter is closed for its entry, which is log entry 34's order (R7, R95, R143, R145). What obtaining a block is: a
location's read is requested, beside a read of an earlier, stopped review of the channel too (log entry 41's choice), and a block of zeros
is READY at once (R89). -/
def Obligations.PaceExpiryPlaysOn : Prop :=
  (∀ (s : State) (ch : Chan) (us : List Upset) (r : Review), s.player[ch].review = some r → r.pace = true →
    (∀ p : PlayBlock, r.play = some p → p.sent ≤ 3 →
      let frame : ReviewFrame := { seq := s.player[ch].seq, pos := p.audio.pos, index := p.sent, content := p.audio.content,
                                   cond := p.audio.cond, samples := (p.audio.samples.drop (64 * p.sent)).take 64 }
      let handed : State := if s.station.audio[ch].length < 8
        then { s.upsets us with station := { s.station with audio := s.station.audio.set ch (s.station.audio[ch] ++ [frame]) } }
        else (s.upsets us).countPart (PartCounters.addReviewDrops 1)
      let reviewing := fun (v : Review) => s.player.set ch { seq := s.player[ch].seq + 1, review := some v }
      (p.sent < 3 → exec (.paceExpiry ch us) s = .next { handed with
        player := reviewing { r with play := some { p with sent := p.sent + 1 } } }) ∧
      (∀ l : Letter, p.sent = 3 → s.letters[r.letter] = some l →
        let played := fun (v : Review) => { handed with
          letters := s.letters.set r.letter (some { l with cursor := p.audio.pos + 1 }), player := reviewing v }
        (∀ a, r.next = some (.ready a) → exec (.paceExpiry ch us) s =
          .next ((played { r with play := some { audio := a, sent := 0 }, next := none }).obtain ch)) ∧
        (∀ pos, r.next = some (.obtaining pos) → exec (.paceExpiry ch us) s = .next (played { r with play := none })) ∧
        (r.next = none → exec (.paceExpiry ch us) s =
          .next ((played { r with play := some { p with sent := 4 } }).obtain ch)))) ∧
    (r.play = none → exec (.paceExpiry ch us) s = .next { s.upsets us with
      player := s.player.set ch { s.player[ch] with review := some { r with late := true, pace := false } } }) ∧
    (∀ (p : PlayBlock) (l : Letter), r.play = some p → p.sent = 4 → r.next = none → Current s ch r.letter l →
      l.phase = .reviewing → l.cursor = l.length →
      let x := idleStarted { reviewStopped (s.upsets us) ch with letters := s.letters.set r.letter (some { l with phase := .opened }) } ch
      let reply : KeyReply :=
        { code := 0x09#8, result := .done, cause := none, cursor := l.cursor, length := l.length, number := l.number }
      exec (.paceExpiry ch us) s = .next { x with station := replied x.station ch reply })) ∧
  (∀ (s : State) (ch : Chan) (r : Review) (l : Letter), s.player[ch].review = some r → s.letters[r.letter] = some l →
    let got := fun (next : NextBlock) (w : Nat × Nat) => { s with
      player := s.player.set ch { s.player[ch] with review := some { r with next := some next, walk := nextWalk l.list w } } }
    let pos := fun (w : Nat × Nat) => listDur (l.list.take w.1) + w.2
    let zeros := fun (w : Nat × Nat) (c : Content) => NextBlock.ready
      { pos := pos w, content := c, cond := Conditions.clear, samples := List.replicate 256 0 }
    (r.next ≠ none ∨ r.walk = none → s.obtain ch = s) ∧
    (∀ w, r.next = none → r.walk = some w →
      (∀ d, l.list[w.1]? = some (.silence d) → s.obtain ch = got (zeros w .silence) w) ∧
      (∀ c, l.list[w.1]? = some (.gap c) → s.obtain ch = got (zeros w .gap) w) ∧
      (∀ hs, l.list[w.1]? = some (.speech hs) →
        (hs[w.2]? = some .placeholder → s.obtain ch = got (zeros w .damaged) w) ∧
        (∀ n, hs[w.2]? = some (.loc n) → s.mem.ctrl ≠ .failed → s.obtain ch = { got (.obtaining (pos w)) w with
          mem := { s.mem with waiting := s.mem.waiting ++
            [{ claim := .playerRead ch true { number := l.number, chan := ch, pos := pos w }, loc := n }] } }))))

/-! ### Block memory -/

/-- ARBITER_GRANT takes the first claim in the order of claim, the oldest among equals; INIT_WRITE_COMPLETE frees the location
written and goes on with the next that is not retired, or makes the controller READY, in which event the Drain Engine acts, where it may (R103);
PATROL_VISIT moves the pointer and reads an
ALLOCATED location that is not being written (R122, R123, R124, R130, R133, R134). -/
def Obligations.ArbiterInitAndPatrol : Prop :=
  (∀ (s : State) (a : Access) (before after : List Access), s.mem.granted = none → s.mem.waiting = before ++ a :: after →
    (∀ x ∈ before, a.claim.rank < x.claim.rank) → (∀ x ∈ after, a.claim.rank ≤ x.claim.rank) →
    exec .arbiterGrant s = .next { s with mem := { s.mem with waiting := before ++ after, granted := some a } }) ∧
  (∀ (s : State) (n m : Nat), Memory.wf s.mem.cells = true → s.mem.granted = some { claim := .initWrite, loc := n } →
    (∀ x, n < x → x < m → x ∈ s.mem.retired) → n < m →
    (m < nLocations → m ∉ s.mem.retired → ∃ t, exec .initWriteComplete s = .next t ∧
      runsList t.mem.free = runsList s.mem.free ++ [n] ∧ Memory.read t.mem.cells n = zeroStored ∧
      t = { s with mem := { s.mem with granted := none, initNext := m, waiting := [{ claim := .initWrite, loc := m }],
                                       cells := t.mem.cells, free := t.mem.free } }) ∧
    (m = nLocations → (∀ x ∈ s.mem.retired, x < nLocations) → ∃ ready : State,
      exec .initWriteComplete s = .next (drainActed ready) ∧ ready = { s with mem := ready.mem } ∧
      ready.mem.ctrl = .ready ∧ ready.mem.waiting = [] ∧ ready.mem.granted = none ∧
      runsList ready.mem.free = runsList s.mem.free ++ [n])) ∧
  (∀ s : State, s.mem.ctrl = .ready → s.mgmt.patrolOn = true → (∀ a : Access, s.mem.granted = some a → a.claim ≠ .patrolRead) →
    (∀ a ∈ s.mem.waiting, a.claim ≠ .patrolRead) →
    let next := if s.mem.patrolPtr + 1 < nLocations then s.mem.patrolPtr + 1 else 0
    (s.mem.status s.mem.patrolPtr = .allocated false → exec .patrolVisit s = .next { s with mem := { s.mem with
      patrolPtr := next, waiting := s.mem.waiting ++ [{ claim := .patrolRead, loc := s.mem.patrolPtr }] } }) ∧
    (s.mem.status s.mem.patrolPtr ≠ .allocated false →
      exec .patrolVisit s = .next { s with mem := { s.mem with patrolPtr := next } }))

/-- ACCESS_TIMEOUT takes the controller to FAILED: no access is in progress or waits, no location stays RELEASING, the Coder's write
is abandoned, a NO_RESPONSE detection names the location, and every take and every review is to be stopped (R84, R117, R131, R132).
-/
def Obligations.AccessTimeoutFailsTheController : Prop :=
  ∀ (s : State) (a : Access), s.mem.granted = some a → ∃ t, exec .accessTimeout s = .next t ∧
    t.mem.ctrl = .failed ∧ t.mem.granted = none ∧ t.mem.waiting = [] ∧ (∀ h ∈ t.mem.held, h.releasing = false) ∧
    t.mem.cells = s.mem.cells ∧ s.mem.retired <+: t.mem.retired ∧
    t.coder.write = none ∧ t.coder.chans = s.coder.chans ∧ t.drain = { s.drain with forming := none } ∧
    (∀ w, s.coder.write = some w →
      t.mgmt.chanCounters[w.chan].stray = satAdd s.mgmt.chanCounters[w.chan].stray 4 ∧
      (s.mem.status w.loc = .allocated true → ∀ h ∈ t.mem.held, h.loc ≠ w.loc)) ∧
    t.wires.detections = s.wires.detections ++
      [{ kind := .noResponse, place := .location a.loc, number := none, chan := none, pos := none }] ∧
    t.wires.takeStops = s.wires.takeStops ++ [.failed] ∧ t.wires.reviewStops = s.wires.reviewStops ++ [.failed] ∧
    t.letters = s.letters ∧ t.ctxs = s.ctxs ∧ t.player = s.player ∧ t.station = s.station ∧ t.pool = s.pool ∧ t.table = s.table ∧
    t.profiles = s.profiles ∧ t.freeSegs = s.freeSegs

/-- The Player's read and the patrol's read complete Good with no bit in error, Corrected with no more than one bit in error in each check
group, and Uncorrectable with two in one group (R127). A block that is delivered is decoded after one read of the letter's profile slot, and
one that is not is a block of zeros marked DAMAGED: it is the READY next block where a play block is present; with none it is the play block
at once, and where the pace timer is stopped, at the start of the review or late, its frame 0 goes out and the timer starts; the block behind
it is then obtained (R88, R89, R90, R93, R94). A slot that is DAMAGED or whose parity the read finds wrong delivers no parameters, and the
block stays OBTAINING (R55, R91). A read that is no longer wanted changes nothing for the Player (R96), and the patrol discards what it reads
(R135). A corrected error marks the location weak and is detected; an uncorrectable one asks for the conversion of an ALLOCATED location's handle,
once, and is detected of a RELEASING one, which is placed on the free or the retired list with its last read (R125, R126, R128, R129). That
the bits gone wrong come with the command, by their check groups, is log entry 11's choice, that the block behind is requested beside a read
of an earlier, stopped review of the channel too is log entry 41's, and what an EMPTY slot delivers, or becomes by
a wrong parity, is log entry 31's.
-/
def Obligations.PlayerAndPatrolReadsComplete : Prop :=
  ∀ (s : State) (n : Nat) (found : List BitError), Memory.wf s.mem.cells = true →
    (∀ (ch : Chan) (ctx : ReadContext) (us : List Upset) (x : State), s.mem.granted = some { claim := .playerRead ch false ctx, loc := n } →
      (ReadDelivers (s.upsets us) n (some ctx) found x ∨ ReadFails (s.upsets us) n found x) →
      exec (.playerReadComplete found us) s = .next x) ∧
    (∀ (ch : Chan) (ctx : ReadContext) (us : List Upset) (r : Review) (l : Letter) (pos : Nat) (x : State),
      s.mem.granted = some { claim := .playerRead ch true ctx, loc := n } → s.player[ch].review = some r →
      r.next = some (.obtaining pos) → s.letters[r.letter] = some l →
      let completes := fun (t : State) => exec (.playerReadComplete found us) s = .next t
      let reviewing := fun (v : Review) (seq : Word16) => x.player.set ch { seq := seq, review := some v }
      let ready := fun (a : BlockAudio) =>
        let frame : ReviewFrame := { seq := s.player[ch].seq, pos := a.pos, index := 0, content := a.content, cond := a.cond,
                                     samples := a.samples.take 64 }
        (r.play ≠ none → completes { x with player := reviewing { r with next := some (.ready a) } s.player[ch].seq }) ∧
        (r.play = none → r.pace = true → completes
          ({ x with player := reviewing { r with play := some { audio := a, sent := 0 }, next := none } s.player[ch].seq }.obtain ch)) ∧
        (r.play = none → r.pace = false →
          let v : Review := { r with play := some { audio := a, sent := 1 }, next := none, late := false, pace := true }
          let playing := { x with player := reviewing v (s.player[ch].seq + 1) }
          (s.station.audio[ch].length < 8 → completes
            ({ playing with station := { s.station with audio := s.station.audio.set ch (s.station.audio[ch] ++ [frame]) } }.obtain ch)) ∧
          (8 ≤ s.station.audio[ch].length → completes ((playing.countPart (PartCounters.addReviewDrops 1)).obtain ch)))
      (ReadDelivers (s.upsets us) n (some ctx) found x →
        let b := (Memory.read s.mem.cells n).block
        let slot := (s.upsets us).profiles[l.slot]
        (slot.status ≠ .damaged → slot.parityOk = true →
          ready { pos := pos, content := .speech, cond := b.cond, samples := decodeBlock slot.contents b }) ∧
        (slot.status = .damaged → completes x) ∧
        (slot.status ≠ .damaged → slot.parityOk = false → completes (slotDamaged x l.slot l.number ch (some pos)))) ∧
      (ReadFails (s.upsets us) n found x →
        ready { pos := pos, content := .damaged, cond := Conditions.clear, samples := List.replicate 256 0 })) ∧
    (∀ x : State, s.mem.granted = some { claim := .patrolRead, loc := n } → (ReadDelivers s n none found x ∨ ReadFails s n found x) →
      exec (.patrolReadComplete found) s = .next x)

/-! ### What passes between the blocks -/

/-- BLOCK_OUTCOME: an outcome of the current take is appended to its list (R13, R36, R38). One that would pass the max duration, or that needs
a segment record where the free records no longer outnumber the reserve, is refused: its location is handed back, 4 counts of stray audio
are added, and the take is force-stopped with cause LENGTH, the rest of the ring discarded, or RESOURCE, the ring kept; a take already in
FINISHING takes the cause and tells it (R13, R18, R19, R39). One of no take is discarded, its location handed back (R13). -/
def Obligations.BlockOutcomesJoinTheTake : Prop :=
  ∀ (s : State) (ch : Chan) (serial : Nat) (o : BlockOutcome), s.wires.reports[ch].head? = some (.outcome serial o) →
    let popped := { s.wires with reports := s.wires.reports.set ch s.wires.reports[ch].tail }
    let dropped := match o with | .coded n => s.handBack n | _ => s
    (∀ i l t, Current s ch i l → t.serial = serial →
      let after := if t.mode = .insert then l.length + t.len + 1 else max l.length (t.start + t.len + 1)
      let refused := fun (cause : StopCause) (requests : List CaptureRequest) => exec (.blockOutcome ch) s = .next { s with
        letters := s.letters.set i (some { l with phase := .finishing (takeStopped t cause) })
        mem := dropped.mem
        mgmt := { dropped.mgmt with chanCounters := strayCounted s ch 4 }
        station := if t.causes.contains cause then s.station else replied s.station ch (limitReply l .full cause)
        wires := { popped with
          captureRequests := s.wires.captureRequests.set ch (s.wires.captureRequests[ch] ++ requests) } }
      (after ≤ l.maxDur → (drawsRecord t.list o = true → s.reserve < s.freeSegs) →
        let appended := { t with list := appendOutcome t.list o }
        let freeSegs := if drawsRecord t.list o then s.freeSegs - 1 else s.freeSegs
        (l.phase = .recording t → exec (.blockOutcome ch) s = .next { s with
          letters := s.letters.set i (some { l with phase := .recording appended }), freeSegs := freeSegs, wires := popped }) ∧
        (l.phase = .finishing t → exec (.blockOutcome ch) s = .next { s with
          letters := s.letters.set i (some { l with phase := .finishing appended }), freeSegs := freeSegs, wires := popped })) ∧
      (l.maxDur < after → l.phase = .recording t ∨ l.phase = .finishing t → refused .length [.finishingDiscard]) ∧
      (after ≤ l.maxDur → drawsRecord t.list o = true → s.freeSegs ≤ s.reserve →
        (l.phase = .recording t → refused .resource [.finishing]) ∧ (l.phase = .finishing t → refused .resource []))) ∧
    ((∀ i l t, Current s ch i l → l.phase.take? = some t → t.serial ≠ serial) →
      exec (.blockOutcome ch) s = .next { s with mem := dropped.mem, mgmt := dropped.mgmt, wires := popped })

/-- END_OF_TAKE commits the take: the list is spliced, the cursor stands at c + L, the letter is OPEN with its idle timer started by a read of
the entry, the records come out even, and an owed STOP is answered DONE (R17, R31, R40, R145). Where that read finds the parity of the entry
wrong, the letter is closed for its entry with a LIMIT reply, before an owed STOP is answered, which is log entry 34's order (R20, R143). With
close-at-commit yes the letter is then closed, unless it has
been already (R17, R25). A held key is then evaluated on what the commit has left (R5, R17). -/
def Obligations.EndOfTakeCommitsTheTake : Prop :=
  ∀ (s : State) (ch : Chan) (us : List Upset) (i : LetterIx) (l : Letter) (t : Take),
    s.wires.reports[ch].head? = some (.endOfTake t.serial) → Current s ch i l → l.phase = .finishing t → 0 < s.freeSegs →
    (s.ctxs[ch].held = none →
      let list := spliceList t.mode t.start t.list l.list
      let spliced := { l with list := list, cursor := t.start + t.len, phase := .opened }
      let stop : KeyReply :=
        { code := 0x03#8, result := .done, cause := none, cursor := t.start + t.len, length := listDur list, number := l.number }
      let handedBack := s.handBackAll (removedLocs t.mode t.start t.list l.list)
      ∃ freeSegs, freeSegs + list.length = s.freeSegs + l.list.length + t.list.length ∧
        let opened := idleStarted { s.upsets us with
          letters := s.letters.set i (some spliced)
          freeSegs := freeSegs
          mem := handedBack.mem
          mgmt := handedBack.mgmt
          wires := { s.wires with reports := s.wires.reports.set ch s.wires.reports[ch].tail } } ch
        let told := { opened with station := if t.stopOwed then stationReplied opened.station ch stop else opened.station }
        (t.closeAtCommit = false ∨ EntryWrong (s.upsets us) ch → exec (.endOfTake ch us) s = .next told) ∧
        (t.closeAtCommit = true → ¬EntryWrong (s.upsets us) ch →
          exec (.endOfTake ch us) s = .next (letterClosed told ch i spliced))) ∧
    (∀ k, s.ctxs[ch].held = some k → ∃ u,
      exec (.endOfTake ch us) { s with ctxs := s.ctxs.set ch { s.ctxs[ch] with held := none } } = .next u ∧
      exec (.endOfTake ch us) s = .next (u.evalKey ch k))

/-- FORCE_STOP: the Coder's MEMORY report stops the take that carries its serial and no other; a notice of a damaged slot stops the
takes bound to the slot, and a notice of FAILED every take, with a LIMIT reply that tells the cause; a take already in FINISHING takes the
cause and tells it (R18, R19). REVIEW_STOPPED_BY_THE_DEVICE makes the reviewing letters that a notice reaches OPEN, starts their idle timers
and tells the cause in a REVIEW reply (R7, R20). -/
def Obligations.ForceStopsAndStoppedReviews : Prop :=
  (∀ (s : State) (ch : Chan) (serial : Nat), s.wires.reports[ch].head? = some (.memoryStop serial) →
    let popped := { s.wires with reports := s.wires.reports.set ch s.wires.reports[ch].tail }
    (∀ i l t, Current s ch i l → l.phase = .recording t ∨ l.phase = .finishing t → t.serial = serial →
      exec (.forceStop (.memory ch)) s = .next { s with
        letters := s.letters.set i (some { l with phase := .finishing (takeStopped t .memory) })
        station := if t.causes.contains .memory then s.station else replied s.station ch (limitReply l .full .memory)
        wires := { popped with
          captureRequests := s.wires.captureRequests.set ch (s.wires.captureRequests[ch] ++ [.finishingDiscard]) } }) ∧
    ((∀ i l t, Current s ch i l → l.phase.take? = some t → t.serial ≠ serial) →
      exec (.forceStop (.memory ch)) s = .next { s with wires := popped })) ∧
  (∀ (s : State) (n : DeviceNotice) (us : List Upset),
    (match n with | .profile k => s.profiles[k].status = .damaged | .failed => s.mem.ctrl = .failed) →
    (∀ (a b : Chan) (i : LetterIx), s.ctxs[a].current = some i → s.ctxs[b].current = some i → a = b) →
    let cause := match n with | .profile _ => StopCause.profile | .failed => StopCause.failed
    let reached := fun (l : Letter) => match n with | .profile k => l.slot = k | .failed => True
    (s.wires.takeStops.head? = some n → ∃ t, exec (.forceStop (.notice n)) s = .next t ∧
      t.wires.takeStops = s.wires.takeStops.tail ∧ t.ctxs = s.ctxs ∧ t.mem = s.mem ∧ t.player = s.player ∧ t.drain = s.drain ∧
      ∀ ch i l x, Current s ch i l → l.phase = .recording x ∨ l.phase = .finishing x →
        (reached l → t.letters[i] = some { l with phase := .finishing (takeStopped x cause) } ∧
          t.station.replies[ch] = s.station.replies[ch] ++
            (if x.causes.contains cause then [] else [limitReply l .fault cause]) ∧
          t.wires.captureRequests[ch] = s.wires.captureRequests[ch] ++
            (if cause = .failed then [.finishingDiscard] else if l.phase = .recording x then [.finishing] else [])) ∧
        (¬reached l → t.letters[i] = some l ∧ t.station.replies[ch] = s.station.replies[ch] ∧
          t.wires.captureRequests[ch] = s.wires.captureRequests[ch])) ∧
    (s.wires.reviewStops.head? = some n →
      (∀ ch : Chan, (s.upsets us).table[ch].damaged = true ∨ (s.upsets us).table[ch].inForce.parityOk = true) →
      ∃ t, exec (.reviewStoppedByTheDevice n us) s = .next t ∧
        t.wires.reviewStops = s.wires.reviewStops.tail ∧ t.drain = s.drain ∧ t.capture = s.capture ∧
        ∀ ch i l, Current s ch i l → l.phase = .reviewing →
          (reached l → t.letters[i] = some { l with phase := .opened } ∧ t.player[ch].review = none ∧
            t.ctxs[ch] = { s.ctxs[ch] with
              idle := (if (s.upsets us).table[ch].damaged then none else idleOf (s.upsets us).table[ch].inForce.settings) } ∧
            t.station.replies[ch] = s.station.replies[ch] ++
              [{ code := 0x09#8, result := .fault, cause := some cause, cursor := l.cursor, length := l.length,
                 number := l.number }]) ∧
          (¬reached l → t.letters[i] = some l ∧ t.player[ch] = s.player[ch] ∧ t.ctxs[ch] = s.ctxs[ch] ∧
            t.station.replies[ch] = s.station.replies[ch])))

/-- CONVERSION_REQUEST replaces the handle of the location, in the committed list of a letter, in a take or not, or in the list of its take, by
a damaged placeholder, the ALLOCATED location passing at the same time to the retired list, and answers with the letter and the handle's
position, which in a take is counted from the take's start; or it answers that no handle holds the location (R47, R48). CONVERSION_ANSWER retires
the location of a converted handle where it is still ALLOCATED, and makes the UNCORRECTED detection with the answer's context (R126, R129,
R173). That the location is retired at the conversion, so that the answer finds it on the list, is log entry 36's reading. -/
def Obligations.ConversionOfAHandle : Prop :=
  (∀ (s : State) (n : Nat) (rest : List Nat), s.wires.convRequests = n :: rest →
    (∀ (i : LetterIx) (l : Letter) (front back : List Segment) (a b : List Handle), s.letters[i] = some l →
      n ∉ listLocs (front ++ .speech (a ++ b) :: back) →
      (∀ (j : LetterIx) (m : Letter), j ≠ i → s.letters[j] = some m →
        n ∉ listLocs m.list ∧ ∀ t, m.phase.take? = some t → n ∉ listLocs t.list) →
      let holds := front ++ .speech (a ++ .loc n :: b) :: back
      let holed := front ++ .speech (a ++ .placeholder :: b) :: back
      let converted := fun (m : Letter) (start : Nat) => exec .conversionRequest s = .next { passedToRetired s n with
        letters := s.letters.set i (some m)
        wires := { s.wires with convRequests := rest, convAnswers := s.wires.convAnswers ++
          [(n, some { number := l.number, chan := l.chan, pos := start + listDur front + a.length })] } }
      (l.list = holds → (∀ t, l.phase.take? = some t → n ∉ listLocs t.list) → converted { l with list := holed } 0) ∧
      (∀ t : Take, t.list = holds → n ∉ listLocs l.list →
        (l.phase = .recording t → converted { l with phase := .recording { t with list := holed } } t.start) ∧
        (l.phase = .finishing t → converted { l with phase := .finishing { t with list := holed } } t.start))) ∧
    ((∀ (j : LetterIx) (m : Letter), s.letters[j] = some m →
        n ∉ listLocs m.list ∧ ∀ t, m.phase.take? = some t → n ∉ listLocs t.list) →
      exec .conversionRequest s = .next { s with
        wires := { s.wires with convRequests := rest, convAnswers := s.wires.convAnswers ++ [(n, none)] } })) ∧
  (∀ (s : State) (n : Nat) (rest : List (Nat × Option ReadContext)),
    (∀ c, s.wires.convAnswers = (n, some c) :: rest → exec .conversionAnswer s = .next { passedToRetired s n with
      wires := { s.wires with convAnswers := rest, detections := s.wires.detections ++
        [{ kind := .uncorrected, place := .location n, number := some c.number, chan := some c.chan, pos := some c.pos }] } }) ∧
    (s.wires.convAnswers = (n, none) :: rest → exec .conversionAnswer s = .next { s with
      wires := { s.wires with convAnswers := rest, detections := s.wires.detections ++
        [{ kind := .uncorrected, place := .location n, number := none, chan := none, pos := none }] } }))

/-- DETECTION: the kind's count rises and its flag is set, the context is taken where the slot is empty or the precedence at least as high,
and a notice is made where the flag was clear and the level announces the kind (R173, R174, R175). NO_LIVE_LETTER_NOTICE applies a pending
copy: with its parity right it is the in-force copy of a GOOD entry; with its parity wrong it is discarded, the entry is DAMAGED and the
detection names the pending copy; without one nothing else changes (R139). Where that makes a GOOD entry DAMAGED under a letter that has
become current since, which is log entry 20's reading, its take is force-stopped or the letter closed (R18, R20). That DETECTION takes the
oldest detection of its block is log entry 16's choice, and that the pending copy's detection names no letter and no channel field is log
entry 23's.
-/
def Obligations.DetectionsAndPendingCopies : Prop :=
  (∀ (s : State) (src : Detector) (c : FaultContext) (front back : List FaultContext), s.wires.detections = front ++ c :: back →
     Detector.made src c = true → (∀ x ∈ front, Detector.made src x = false) →
     ∃ t, exec (.detection src) s = .next t ∧
       t.wires = { s.wires with detections := front ++ back } ∧
       (∀ k : FaultKind, t.mgmt.faults.tally k =
         if k = c.kind then { seen := true, count := satAdd (s.mgmt.faults.tally k).count 1 } else s.mgmt.faults.tally k) ∧
       t.mgmt.faults.context = (match s.mgmt.faults.context with
         | none => some c
         | some x => if x.kind.precedence ≤ c.kind.precedence then some c else some x) ∧
       (let notice : Notice := { kind := c.kind, count := satAdd (s.mgmt.faults.tally c.kind).count 1, context := c }
        let made := !(s.mgmt.faults.tally c.kind).seen && s.mgmt.level.announces c.kind
        t.pool = { s.pool with control := s.pool.control ++
          (if made ∧ s.pool.control.length < 8 then [.notice notice] else []) } ∧
        t.mgmt.owed = s.mgmt.owed ++ (if made ∧ 8 ≤ s.pool.control.length then [notice] else [])) ∧
       t = { s with pool := t.pool, wires := t.wires, mgmt := { s.mgmt with faults := t.mgmt.faults, owed := t.mgmt.owed } }) ∧
  (∀ (s : State) (ch : Chan) (us : List Upset), 0 < s.wires.noLive[ch] →
     let u := s.upsets us
     let wires := { s.wires with noLive := s.wires.noLive.set ch (s.wires.noLive[ch] - 1) }
     (u.table[ch].pendingCopy = none → exec (.noLiveLetterNotice ch us) s = .next { u with wires := wires }) ∧
     (∀ st, u.table[ch].pendingCopy = some { settings := st, parityOk := true } →
       exec (.noLiveLetterNotice ch us) s = .next { u with
         wires := wires
         table := u.table.set ch { damaged := false, inForce := { settings := st, parityOk := true }, pendingCopy := none } }) ∧
     (∀ st, u.table[ch].pendingCopy = some { settings := st, parityOk := false } →
       let x := { u with
         wires := { wires with detections := s.wires.detections ++
           [{ kind := .tableParity, place := .channelEntry ch true, number := none, chan := none, pos := none }] }
         table := u.table.set ch { u.table[ch] with damaged := true, pendingCopy := none } }
       (u.table[ch].damaged = true ∨ s.currentLetter ch = none → exec (.noLiveLetterNotice ch us) s = .next x) ∧
       (u.table[ch].damaged = false → exec (.noLiveLetterNotice ch us) s = .next (entryStopped x ch))))

/-- TAKE_FINISHING makes a CAPTURING channel FINISHING and pads its partial block, where there is one; RING_EMPTYING with discard empties the
ring and counts 1 for each 64 samples or part of 64, and with a cancel makes the channel IDLE uncounted; with the ring empty and no write of
the take in progress, whatever is written for another channel or take, the end-of-take report goes out at once, and with one in progress it
does not. A request that finds the channel in another state changes nothing (R71, R77, R78, R85). -/
def Obligations.CaptureEnds : Prop :=
  ∀ (s : State) (ch : Chan) (q : CaptureRequest) (rest : List CaptureRequest), s.wires.captureRequests[ch] = q :: rest →
    let wires := { s.wires with captureRequests := s.wires.captureRequests.set ch rest }
    let x := s.capture[ch]
    let serial := s.coder.chans[ch].serial
    let writing := ∃ w, s.coder.write = some w ∧ w.chan = ch ∧ w.serial = serial
    let ended := { s with
      wires := { wires with reports := s.wires.reports.set ch (s.wires.reports[ch] ++ [.endOfTake serial]) }
      capture := s.capture.set ch { x with state := .idle, ring := [] } }
    let finishing := fun (ring : List RingEntry) => { s with
      wires := wires, capture := s.capture.set ch { x with state := .finishing, ring := ring } }
    let lost := (x.ring.map (fun e => match e with | .block xs _ _ => (xs.length + 63) / 64 | .gap _ _ => 0)).sum
    let stray := { s.mgmt with chanCounters := strayCounted s ch lost }
    (q = .finishing →
      (x.state = .capturing →
        (∀ (whole : List RingEntry) (ys : List Sample) (f p : Bool), x.ring = whole ++ [.block ys f p] → ys.length < 256 →
          exec (.takeFinishing ch) s =
            .next (finishing (whole ++ [.block (ys ++ List.replicate (256 - ys.length) 0) f true]))) ∧
        (∀ (front : List RingEntry) (e : RingEntry), x.ring = front ++ [e] → e.serviceable = true →
          exec (.takeFinishing ch) s = .next (finishing x.ring)) ∧
        (x.ring = [] → (¬writing → exec (.takeFinishing ch) s = .next ended) ∧
          (writing → exec (.takeFinishing ch) s = .next (finishing [])))) ∧
      (x.state ≠ .capturing → exec (.takeFinishing ch) s = .next { s with wires := wires })) ∧
    (q = .finishingDiscard →
      (x.state ≠ .idle → (¬writing → exec (.ringEmptying ch) s = .next { ended with mgmt := stray }) ∧
        (writing → exec (.ringEmptying ch) s = .next { finishing [] with mgmt := stray })) ∧
      (x.state = .idle → exec (.ringEmptying ch) s = .next { s with wires := wires })) ∧
    (q = .cancelled →
      (x.state = .capturing → exec (.ringEmptying ch) s = .next { s with
        wires := wires, capture := s.capture.set ch { x with state := .idle, ring := [] } }) ∧
      (x.state ≠ .capturing → exec (.ringEmptying ch) s = .next { s with wires := wires }))

/-! ### The Coder -/

/-- CODER_SERVICE serves the first ready channel after the pointer: a gap entry gives as many gap outcomes as it counts; a block the detector
judges silent is reported so; a coded block gets the free location at the head of the list, is coded from the channel's carried step index
and its write is requested; with no free location the channel is halted and asks for a MEMORY force-stop, and under a FAILED controller the
block is discarded (R58, R59, R60, R62, R80, R81, R82, R124). A block whose read finds the slot DAMAGED or its parity wrong is discarded
uncoded, as is every later block of the take, which is withheld (R55, R83). Where the service leaves a FINISHING channel's ring empty and no
write of its take in progress, the end-of-take report follows (R85). A detection names the letter whose take started last on the channel, which
is log entry 23's choice; what an EMPTY slot delivers, or becomes by a wrong parity, is log entry 31's; a hang count above H counts as H by log
entry 37, and no read is made for a block of a withheld channel by log entry 38. -/
def Obligations.CoderServesTheNextChannel : Prop :=
  ∀ (s : State) (ch : Chan) (us : List Upset) (e : RingEntry) (ring : List RingEntry), s.coder.write = none →
    s.capture[ch].ring = e :: ring → s.coderReady ch = true →
    (∀ c : Chan, s.coderReady c = true → cyclicDist s.coder.ptr ch ≤ cyclicDist s.coder.ptr c) →
    let x := s.coder.chans[ch]
    let ends := decide (s.capture[ch].state = .finishing) && ring.isEmpty
    let capture := s.capture.set ch { s.capture[ch] with ring := ring, state := if ends then .idle else s.capture[ch].state }
    let reported := fun (w : Wires) (rs : List CoderReport) => { w with
      reports := s.wires.reports.set ch (s.wires.reports[ch] ++ rs ++ (if ends then [.endOfTake x.serial] else [])) }
    let coder := fun (y : CoderChan) => { s.coder with chans := s.coder.chans.set ch y, ptr := ch }
    let discarded := fun (t : State) (y : CoderChan) (rs : List CoderReport) => exec (.coderService us) s = .next { t with
      capture := capture, coder := coder y, wires := reported t.wires rs, mgmt := { s.mgmt with chanCounters := strayCounted s ch 4 } }
    (∀ c n, e = .gap c n → exec (.coderService us) s = .next { s.upsets us with
      capture := capture, coder := { s.coder with ptr := ch }, wires := reported s.wires (List.replicate n (.outcome x.serial (.gap c))) }) ∧
    (∀ xs f p, e = .block xs f p →
      let slot := (s.upsets us).profiles[x.slot]
      let P := slot.contents
      (x.withheld = true → discarded (s.upsets us) x []) ∧
      (x.withheld = false → slot.status = .damaged → discarded (s.upsets us) { x with withheld := true } []) ∧
      (x.withheld = false → slot.status ≠ .damaged → slot.parityOk = false →
        discarded (slotDamaged (s.upsets us) x.slot x.number ch none) { x with withheld := true } []) ∧
      (x.withheld = false → slot.status ≠ .damaged → slot.parityOk = true →
        let silent := exec (.coderService us) s = .next { s.upsets us with
          capture := capture, coder := coder { x with detector := .quiet }, wires := reported s.wires [.outcome x.serial .silent]
          mgmt := { s.mgmt with
            chanCounters := s.mgmt.chanCounters.set ch
              { s.mgmt.chanCounters[ch] with silent := satAdd s.mgmt.chanCounters[ch].silent 1 } } }
        let coded := fun (d : Talk) =>
          (∀ n k free, s.mem.ctrl = .ready → s.mem.free = (n, k + 1) :: free →
            let out := codeBlock P x.carry xs f p
            ∃ t, exec (.coderService us) s = .next t ∧
              runsList s.mem.free = n :: runsList t.mem.free ∧
              t = { s.upsets us with
                capture := s.capture.set ch { s.capture[ch] with ring := ring }
                coder := { chans := s.coder.chans.set ch { x with detector := d, carry := out.2 }, ptr := ch,
                           write := some { chan := ch, serial := x.serial, loc := n, block := out.1 } }
                mem := { s.mem with
                  free := t.mem.free
                  held := s.mem.held ++ [{ loc := n, releasing := false, writing := true }]
                  waiting := s.mem.waiting ++ [{ claim := .coderWrite, loc := n }] } }) ∧
          (s.mem.ctrl = .ready → s.mem.free = [] →
            discarded (s.upsets us) { x with detector := d, halted := true } [.memoryStop x.serial]) ∧
          (s.mem.ctrl = .failed → discarded (s.upsets us) { x with detector := d } [])
        (x.detector ≠ .quiet → P.tEnter ≤ energy xs → coded .talk) ∧
        (x.detector = .talk → energy xs < P.tEnter → (0 < P.hang → coded (.hang 1)) ∧ (P.hang = 0 → silent)) ∧
        (∀ h, x.detector = .hang h → energy xs < P.tEnter → (h < P.hang → coded (.hang (h + 1))) ∧ (P.hang ≤ h → silent)) ∧
        (x.detector = .quiet → (P.tLeave ≤ energy xs → coded .talk) ∧ (energy xs < P.tLeave → silent))))

/-- CODER_WRITE_COMPLETE: the location holds the coded block and is no longer being written, the channel's blocks-coded counter
rises, and its SAT-blocks and CLIP-blocks counters where the block has the condition and only there, the coded outcome is reported, and the Coder
is free; where this was the last that a FINISHING channel waited for, the end-of-take report follows (R84, R85, R119). That the two condition
counters lie within their 32 bits is the premise on the counters (R178), which every step keeps. -/
def Obligations.CoderWriteReportsTheBlock : Prop :=
  ∀ (s : State) (w : CodedWrite) (n : Nat), Memory.wf s.mem.cells = true → s.coder.write = some w →
    s.mem.granted = some { claim := .coderWrite, loc := n } →
    s.mgmt.chanCounters[w.chan].satBlocks ≤ max32 → s.mgmt.chanCounters[w.chan].clipBlocks ≤ max32 →
    let ends := decide (s.capture[w.chan].state = .finishing) && s.capture[w.chan].ring.isEmpty
    ∃ t, exec .coderWriteComplete s = .next t ∧
      Memory.read t.mem.cells w.loc = { block := w.block, errs := [] } ∧
      (∀ m, m ≠ w.loc → Memory.read t.mem.cells m = Memory.read s.mem.cells m) ∧
      t.mem.held = s.mem.held.map (fun h => if h.loc = w.loc then { h with writing := false } else h) ∧
      (let x := s.mgmt.chanCounters[w.chan]
       t.mgmt.chanCounters[w.chan] = { x with
         coded := satAdd x.coded 1
         satBlocks := if w.block.cond.sat then satAdd x.satBlocks 1 else x.satBlocks
         clipBlocks := if w.block.cond.clip then satAdd x.clipBlocks 1 else x.clipBlocks }) ∧
      (∀ c : Chan, c ≠ w.chan → t.mgmt.chanCounters[c] = s.mgmt.chanCounters[c]) ∧
      t = { s with
        mem := { s.mem with granted := none, cells := t.mem.cells, held := t.mem.held }
        mgmt := { s.mgmt with chanCounters := t.mgmt.chanCounters }
        coder := { s.coder with write := none }
        capture := s.capture.set w.chan
          { s.capture[w.chan] with state := if ends then .idle else s.capture[w.chan].state }
        wires := { s.wires with
          reports := s.wires.reports.set w.chan (s.wires.reports[w.chan] ++ [.outcome w.serial (.coded w.loc)] ++
            (if ends then [.endOfTake s.coder.chans[w.chan].serial] else [])) } }

/-! ### The drain -/

/-- DRAIN_START takes a drain start where nothing is delivered, nothing is suspended and the Drain Engine may act: of the head of URGENT, or of
ROUTINE where URGENT is empty, and nothing changes where both are empty. SUSPENSION takes the switch: a ROUTINE letter gives way to the head
of URGENT, SUSPENDED where a record of it has been handed and QUEUED again where none has (R98, R101, R103, R109). That these two commands act
as the event in which the Drain Engine acts by itself does is log entry 8's choice; that a letter whose next record is its LETTER-END gives way
too where SUSPENSION is commanded is log entry 21's reading. -/
def Obligations.DeliveriesStartAndGiveWay : Prop :=
  ∀ s : State, s.drainMayAct = true →
    (s.drain.delivery = none → s.drain.suspended = none →
      (∀ (i : LetterIx) (l : Letter) (ticket : Nat),
        ((s.classOf .urgent).head? = some i ∨ s.classOf .urgent = [] ∧ (s.classOf .routine).head? = some i) →
        s.letters[i] = some l → l.phase = .queued ticket →
        exec .drainStart s = .next { s with
          letters := s.letters.set i (some { l with phase := .draining ticket })
          drain := { s.drain with delivery := some (deliveryStart i l) } }) ∧
      (s.classOf .urgent = [] → s.classOf .routine = [] → exec .drainStart s = .next s)) ∧
    (s.drain.delivery ≠ none ∨ s.drain.suspended ≠ none → exec .drainStart s = .next s) ∧
    (∀ (d : Delivery) (i : LetterIx) (l m : Letter) (ticket ticket' : Nat), s.drain.delivery = some d → s.drain.suspended = none →
      s.drain.forming = none → d.abort = false → s.letters[d.letter] = some m → m.cls = .routine → m.phase = .draining ticket' →
      (s.classOf .urgent).head? = some i → s.letters[i] = some l → l.phase = .queued ticket →
      (d.next ≠ .head → exec .suspension s = .next { s with
        letters := (s.letters.set d.letter (some { m with phase := .suspended ticket' })).set i
          (some { l with phase := .draining ticket })
        drain := { s.drain with delivery := some (deliveryStart i l), suspended := some { d with next := .resume } } }) ∧
      (d.next = .head → exec .suspension s = .next { s with
        letters := (s.letters.set d.letter (some { m with phase := .queued ticket' })).set i
          (some { l with phase := .draining ticket })
        drain := { s.drain with delivery := some (deliveryStart i l) } }))

/-- The records of a delivery, each handed to the empty drain slot at a record boundary where nothing else is due: LETTER-HEAD,
LETTER-RESUME, and the body records of the walk, SILENCE with its true and played durations, GAP with its cause, GAP DAMAGED for a
placeholder or a block that cannot be read, BLOCK after its read (R68, R102, R104, R105, R106, R110). The BLOCK whose read has begun, or the
GAP in its place, is handed whatever HOLD, PAUSE or an abort has done meanwhile, and what has become due meanwhile, an abort or a suspension,
is then acted on in the same event, where it may be (R102, R109, R112, R115); its read may meet errors, whatever has become of
the location meanwhile (R127, R128, R129). That
the bits gone wrong come with the command is log entry 11's choice. -/
def Obligations.DrainRecordsAreHandedInOrder : Prop :=
  ∀ (s : State) (d : Delivery) (l : Letter), s.drain.delivery = some d → s.letters[d.letter] = some l →
    let handed := fun (s : State) (r : DrainRecord) (d : Delivery) => { s with
      pool := { s.pool with slot := some r }, drain := { s.drain with delivery := some d, forming := none } }
    let moved := fun (seg handle blocks damaged : Nat) => { d with
      seg := seg, handle := handle, pos := d.pos + blocks, body := d.body + 1, damaged := d.damaged + damaged,
      next := if seg < l.list.length then .body else .ending }
    (s.drainMayAct = true → s.pool.slot = none → s.drain.forming = none → d.abort = false →
      (∀ x, s.drain.suspended = some x → x.abort = false) → s.suspensionDue d = false →
      (∀ ticket, d.next = .head → d.seg = 0 → l.list ≠ [] → l.phase = .draining ticket → exec .letterHead s =
        .next (handed s (.letterHead l.number l.chan l.author l.cls l.slot l.generation l.w l.length l.list.length ticket)
          { d with next := .body })) ∧
      (d.next = .resume → d.seg < l.list.length → exec .letterResume s =
        .next (handed s (.letterResume l.number d.pos d.body) { d with next := .body })) ∧
      (d.next = .resume → l.list.length ≤ d.seg → exec .letterResume s =
        .next (handed s (.letterResume l.number d.pos d.body) { d with next := .ending })) ∧
      (∀ n, d.next = .body → l.list[d.seg]? = some (.silence n) → exec .bodyRecord s =
        .next (handed s (.silence l.number d.pos n (if l.cap = 0 then n else min n l.cap)) (moved (d.seg + 1) 0 n 0))) ∧
      (d.next = .body → l.list[d.seg]? = some (.gap .overrun) → exec .bodyRecord s =
        .next (handed s (.gap l.number d.pos .overrun) (moved (d.seg + 1) 0 1 0))) ∧
      (d.next = .body → l.list[d.seg]? = some (.gap .sequence) → exec .bodyRecord s =
        .next (handed s (.gap l.number d.pos .sequence) (moved (d.seg + 1) 0 1 0))) ∧
      (∀ hs, d.next = .body → l.list[d.seg]? = some (.speech hs) → hs[d.handle]? = some .placeholder → exec .bodyRecord s =
        .next (handed s (.gap l.number d.pos .damaged) (if d.handle + 1 < hs.length then moved d.seg (d.handle + 1) 1 1
          else moved (d.seg + 1) 0 1 1))) ∧
      (∀ hs n, d.next = .body → l.list[d.seg]? = some (.speech hs) → hs[d.handle]? = some (.loc n) → exec .block s = .next { s with
        drain := { s.drain with forming := some d.pos }
        mem := { s.mem with waiting := s.mem.waiting ++
          [{ claim := .drainRead { number := l.number, chan := l.chan, pos := d.pos }, loc := n }] } })) ∧
    (∀ hs n ctx found x, s.drain.forming ≠ none → l.list[d.seg]? = some (.speech hs) → d.handle < hs.length →
      s.mem.granted = some { claim := .drainRead ctx, loc := n } → Memory.wf s.mem.cells = true →
      let after := fun damaged => if d.handle + 1 < hs.length then moved d.seg (d.handle + 1) 1 damaged else moved (d.seg + 1) 0 1 damaged
      (ReadDelivers s n (some ctx) found x → exec (.drainReadComplete found) s =
        .next (drainActed (handed x (.block l.number d.pos (Memory.read s.mem.cells n).block) (after 0)))) ∧
      (ReadFails s n found x → exec (.drainReadComplete found) s =
        .next (drainActed (handed x (.gap l.number d.pos .damaged) (after 1)))))

/-- LETTER_END and LETTER_ABANDON hand the last record of a letter, which leaves the issue list and is freed; PENDING_ABORT frees a
letter of which no record was handed, or makes its LETTER-ABANDON the next record; SUSPENDED_ABANDON ends the suspended letter. The
counters rise (R26, R107, R115, R116). After the end of a delivery the next one is chosen: the head of URGENT; with URGENT empty the suspended
letter, whose next record is LETTER-RESUME, or LETTER-ABANDON where its abort is pending; with none suspended the head of ROUTINE (R103, R108,
R110). -/
def Obligations.DeliveriesEnd : Prop :=
  ∀ (s : State) (d : Delivery) (l : Letter), s.drainMayAct = true → s.drain.forming = none → s.letters[d.letter] = some l →
    let left := fun (r : Option DrainRecord) (part : PartCounters → PartCounters) (drain : Drain) =>
      let handedBack := s.handBackAll (listLocs l.list)
      { s with
        letters := s.letters.set d.letter none
        freeSegs := s.freeSegs + l.records
        mem := handedBack.mem
        mgmt := { handedBack.mgmt with part := part handedBack.mgmt.part }
        profiles := s.profiles.set l.slot { s.profiles[l.slot] with refs := s.profiles[l.slot].refs - 1 }
        pool := { s.pool with slot := r.or s.pool.slot }
        drain := { drain with issue := s.drain.issue.erase d.letter } }
    (s.drain.delivery = some d →
      let ended := { s.drain with delivery := none }
      let abandoned := fun (p : PartCounters) => { p with lettersAbandoned := satAdd p.lettersAbandoned 1 }
      ((∀ x, s.drain.suspended = some x → x.abort = false) → s.pool.slot = none → d.next = .ending → d.abort = false →
        exec .letterEnd s = .next (nextDelivery (left (some (.letterEnd l.number d.body d.pos d.damaged))
          (fun p => { p with lettersDrained := satAdd p.lettersDrained 1 }) ended))) ∧
      ((∀ x, s.drain.suspended = some x → x.abort = false) → s.pool.slot = none → d.next = .abandon → d.abort = true →
        exec .letterAbandon s = .next (nextDelivery (left (some (.letterAbandon l.number d.pos d.body)) abandoned ended))) ∧
      (d.next = .head → d.abort = true → exec .pendingAbort s = .next (nextDelivery (left none abandoned ended))) ∧
      (d.next ≠ .head → d.next ≠ .abandon → d.abort = true → exec .pendingAbort s = .next { s with
        drain := { s.drain with delivery := some { d with next := .abandon } } })) ∧
    (∀ x : Delivery, s.drain.suspended = some d → s.drain.delivery = some x → d.abort = true → s.pool.slot = none →
      exec .suspendedAbandon s = .next (left (some (.letterAbandon d.number d.pos d.body))
        (fun p => { p with lettersAbandoned := satAdd p.lettersAbandoned 1 }) { s.drain with suspended := none }))
end

