-- ==== Sys2Proof/Laws/State.lean ====
section
/-! SUPPORT. What each update of the state does to each field: one lemma for each, true by unfolding. -/

namespace Sys2Proof.Machine

/-! ### count -/

@[simp] theorem State.count_pending (s : State) (ch : Chan) (f : ChanCounters → ChanCounters) : (s.count ch f).pending = s.pending := rfl
@[simp] theorem State.count_station (s : State) (ch : Chan) (f : ChanCounters → ChanCounters) : (s.count ch f).station = s.station := rfl
@[simp] theorem State.count_pool (s : State) (ch : Chan) (f : ChanCounters → ChanCounters) : (s.count ch f).pool = s.pool := rfl
@[simp] theorem State.count_table (s : State) (ch : Chan) (f : ChanCounters → ChanCounters) : (s.count ch f).table = s.table := rfl
@[simp] theorem State.count_profiles (s : State) (ch : Chan) (f : ChanCounters → ChanCounters) : (s.count ch f).profiles = s.profiles := rfl
@[simp] theorem State.count_letters (s : State) (ch : Chan) (f : ChanCounters → ChanCounters) : (s.count ch f).letters = s.letters := rfl
@[simp] theorem State.count_ctxs (s : State) (ch : Chan) (f : ChanCounters → ChanCounters) : (s.count ch f).ctxs = s.ctxs := rfl
@[simp] theorem State.count_freeSegs (s : State) (ch : Chan) (f : ChanCounters → ChanCounters) : (s.count ch f).freeSegs = s.freeSegs := rfl
@[simp] theorem State.count_capture (s : State) (ch : Chan) (f : ChanCounters → ChanCounters) : (s.count ch f).capture = s.capture := rfl
@[simp] theorem State.count_coder (s : State) (ch : Chan) (f : ChanCounters → ChanCounters) : (s.count ch f).coder = s.coder := rfl
@[simp] theorem State.count_player (s : State) (ch : Chan) (f : ChanCounters → ChanCounters) : (s.count ch f).player = s.player := rfl
@[simp] theorem State.count_drain (s : State) (ch : Chan) (f : ChanCounters → ChanCounters) : (s.count ch f).drain = s.drain := rfl
@[simp] theorem State.count_mem (s : State) (ch : Chan) (f : ChanCounters → ChanCounters) : (s.count ch f).mem = s.mem := rfl
@[simp] theorem State.count_mgmt (s : State) (ch : Chan) (f : ChanCounters → ChanCounters) : (s.count ch f).mgmt = { s.mgmt with chanCounters := upd s.mgmt.chanCounters ch f } := rfl
@[simp] theorem State.count_wires (s : State) (ch : Chan) (f : ChanCounters → ChanCounters) : (s.count ch f).wires = s.wires := rfl

/-! ### countPart -/

@[simp] theorem State.countPart_pending (s : State) (f : PartCounters → PartCounters) : (s.countPart f).pending = s.pending := rfl
@[simp] theorem State.countPart_station (s : State) (f : PartCounters → PartCounters) : (s.countPart f).station = s.station := rfl
@[simp] theorem State.countPart_pool (s : State) (f : PartCounters → PartCounters) : (s.countPart f).pool = s.pool := rfl
@[simp] theorem State.countPart_table (s : State) (f : PartCounters → PartCounters) : (s.countPart f).table = s.table := rfl
@[simp] theorem State.countPart_profiles (s : State) (f : PartCounters → PartCounters) : (s.countPart f).profiles = s.profiles := rfl
@[simp] theorem State.countPart_letters (s : State) (f : PartCounters → PartCounters) : (s.countPart f).letters = s.letters := rfl
@[simp] theorem State.countPart_ctxs (s : State) (f : PartCounters → PartCounters) : (s.countPart f).ctxs = s.ctxs := rfl
@[simp] theorem State.countPart_freeSegs (s : State) (f : PartCounters → PartCounters) : (s.countPart f).freeSegs = s.freeSegs := rfl
@[simp] theorem State.countPart_capture (s : State) (f : PartCounters → PartCounters) : (s.countPart f).capture = s.capture := rfl
@[simp] theorem State.countPart_coder (s : State) (f : PartCounters → PartCounters) : (s.countPart f).coder = s.coder := rfl
@[simp] theorem State.countPart_player (s : State) (f : PartCounters → PartCounters) : (s.countPart f).player = s.player := rfl
@[simp] theorem State.countPart_drain (s : State) (f : PartCounters → PartCounters) : (s.countPart f).drain = s.drain := rfl
@[simp] theorem State.countPart_mem (s : State) (f : PartCounters → PartCounters) : (s.countPart f).mem = s.mem := rfl
@[simp] theorem State.countPart_mgmt (s : State) (f : PartCounters → PartCounters) : (s.countPart f).mgmt = { s.mgmt with part := f s.mgmt.part } := rfl
@[simp] theorem State.countPart_wires (s : State) (f : PartCounters → PartCounters) : (s.countPart f).wires = s.wires := rfl

/-! ### modCtx -/

@[simp] theorem State.modCtx_pending (s : State) (ch : Chan) (f : Context → Context) : (s.modCtx ch f).pending = s.pending := rfl
@[simp] theorem State.modCtx_station (s : State) (ch : Chan) (f : Context → Context) : (s.modCtx ch f).station = s.station := rfl
@[simp] theorem State.modCtx_pool (s : State) (ch : Chan) (f : Context → Context) : (s.modCtx ch f).pool = s.pool := rfl
@[simp] theorem State.modCtx_table (s : State) (ch : Chan) (f : Context → Context) : (s.modCtx ch f).table = s.table := rfl
@[simp] theorem State.modCtx_profiles (s : State) (ch : Chan) (f : Context → Context) : (s.modCtx ch f).profiles = s.profiles := rfl
@[simp] theorem State.modCtx_letters (s : State) (ch : Chan) (f : Context → Context) : (s.modCtx ch f).letters = s.letters := rfl
@[simp] theorem State.modCtx_ctxs (s : State) (ch : Chan) (f : Context → Context) : (s.modCtx ch f).ctxs = upd s.ctxs ch f := rfl
@[simp] theorem State.modCtx_freeSegs (s : State) (ch : Chan) (f : Context → Context) : (s.modCtx ch f).freeSegs = s.freeSegs := rfl
@[simp] theorem State.modCtx_capture (s : State) (ch : Chan) (f : Context → Context) : (s.modCtx ch f).capture = s.capture := rfl
@[simp] theorem State.modCtx_coder (s : State) (ch : Chan) (f : Context → Context) : (s.modCtx ch f).coder = s.coder := rfl
@[simp] theorem State.modCtx_player (s : State) (ch : Chan) (f : Context → Context) : (s.modCtx ch f).player = s.player := rfl
@[simp] theorem State.modCtx_drain (s : State) (ch : Chan) (f : Context → Context) : (s.modCtx ch f).drain = s.drain := rfl
@[simp] theorem State.modCtx_mem (s : State) (ch : Chan) (f : Context → Context) : (s.modCtx ch f).mem = s.mem := rfl
@[simp] theorem State.modCtx_mgmt (s : State) (ch : Chan) (f : Context → Context) : (s.modCtx ch f).mgmt = s.mgmt := rfl
@[simp] theorem State.modCtx_wires (s : State) (ch : Chan) (f : Context → Context) : (s.modCtx ch f).wires = s.wires := rfl

/-! ### modLetter -/

@[simp] theorem State.modLetter_pending (s : State) (i : LetterIx) (f : Letter → Letter) : (s.modLetter i f).pending = s.pending := rfl
@[simp] theorem State.modLetter_station (s : State) (i : LetterIx) (f : Letter → Letter) : (s.modLetter i f).station = s.station := rfl
@[simp] theorem State.modLetter_pool (s : State) (i : LetterIx) (f : Letter → Letter) : (s.modLetter i f).pool = s.pool := rfl
@[simp] theorem State.modLetter_table (s : State) (i : LetterIx) (f : Letter → Letter) : (s.modLetter i f).table = s.table := rfl
@[simp] theorem State.modLetter_profiles (s : State) (i : LetterIx) (f : Letter → Letter) : (s.modLetter i f).profiles = s.profiles := rfl
@[simp] theorem State.modLetter_letters (s : State) (i : LetterIx) (f : Letter → Letter) : (s.modLetter i f).letters = upd s.letters i (fun l => l.map f) := rfl
@[simp] theorem State.modLetter_ctxs (s : State) (i : LetterIx) (f : Letter → Letter) : (s.modLetter i f).ctxs = s.ctxs := rfl
@[simp] theorem State.modLetter_freeSegs (s : State) (i : LetterIx) (f : Letter → Letter) : (s.modLetter i f).freeSegs = s.freeSegs := rfl
@[simp] theorem State.modLetter_capture (s : State) (i : LetterIx) (f : Letter → Letter) : (s.modLetter i f).capture = s.capture := rfl
@[simp] theorem State.modLetter_coder (s : State) (i : LetterIx) (f : Letter → Letter) : (s.modLetter i f).coder = s.coder := rfl
@[simp] theorem State.modLetter_player (s : State) (i : LetterIx) (f : Letter → Letter) : (s.modLetter i f).player = s.player := rfl
@[simp] theorem State.modLetter_drain (s : State) (i : LetterIx) (f : Letter → Letter) : (s.modLetter i f).drain = s.drain := rfl
@[simp] theorem State.modLetter_mem (s : State) (i : LetterIx) (f : Letter → Letter) : (s.modLetter i f).mem = s.mem := rfl
@[simp] theorem State.modLetter_mgmt (s : State) (i : LetterIx) (f : Letter → Letter) : (s.modLetter i f).mgmt = s.mgmt := rfl
@[simp] theorem State.modLetter_wires (s : State) (i : LetterIx) (f : Letter → Letter) : (s.modLetter i f).wires = s.wires := rfl

/-! ### setLetter -/

@[simp] theorem State.setLetter_pending (s : State) (i : LetterIx) (l : Option Letter) : (s.setLetter i l).pending = s.pending := rfl
@[simp] theorem State.setLetter_station (s : State) (i : LetterIx) (l : Option Letter) : (s.setLetter i l).station = s.station := rfl
@[simp] theorem State.setLetter_pool (s : State) (i : LetterIx) (l : Option Letter) : (s.setLetter i l).pool = s.pool := rfl
@[simp] theorem State.setLetter_table (s : State) (i : LetterIx) (l : Option Letter) : (s.setLetter i l).table = s.table := rfl
@[simp] theorem State.setLetter_profiles (s : State) (i : LetterIx) (l : Option Letter) : (s.setLetter i l).profiles = s.profiles := rfl
@[simp] theorem State.setLetter_letters (s : State) (i : LetterIx) (l : Option Letter) : (s.setLetter i l).letters = upd s.letters i (fun _ => l) := rfl
@[simp] theorem State.setLetter_ctxs (s : State) (i : LetterIx) (l : Option Letter) : (s.setLetter i l).ctxs = s.ctxs := rfl
@[simp] theorem State.setLetter_freeSegs (s : State) (i : LetterIx) (l : Option Letter) : (s.setLetter i l).freeSegs = s.freeSegs := rfl
@[simp] theorem State.setLetter_capture (s : State) (i : LetterIx) (l : Option Letter) : (s.setLetter i l).capture = s.capture := rfl
@[simp] theorem State.setLetter_coder (s : State) (i : LetterIx) (l : Option Letter) : (s.setLetter i l).coder = s.coder := rfl
@[simp] theorem State.setLetter_player (s : State) (i : LetterIx) (l : Option Letter) : (s.setLetter i l).player = s.player := rfl
@[simp] theorem State.setLetter_drain (s : State) (i : LetterIx) (l : Option Letter) : (s.setLetter i l).drain = s.drain := rfl
@[simp] theorem State.setLetter_mem (s : State) (i : LetterIx) (l : Option Letter) : (s.setLetter i l).mem = s.mem := rfl
@[simp] theorem State.setLetter_mgmt (s : State) (i : LetterIx) (l : Option Letter) : (s.setLetter i l).mgmt = s.mgmt := rfl
@[simp] theorem State.setLetter_wires (s : State) (i : LetterIx) (l : Option Letter) : (s.setLetter i l).wires = s.wires := rfl

/-! ### setPhase -/

@[simp] theorem State.setPhase_pending (s : State) (i : LetterIx) (p : Phase) : (s.setPhase i p).pending = s.pending := rfl
@[simp] theorem State.setPhase_station (s : State) (i : LetterIx) (p : Phase) : (s.setPhase i p).station = s.station := rfl
@[simp] theorem State.setPhase_pool (s : State) (i : LetterIx) (p : Phase) : (s.setPhase i p).pool = s.pool := rfl
@[simp] theorem State.setPhase_table (s : State) (i : LetterIx) (p : Phase) : (s.setPhase i p).table = s.table := rfl
@[simp] theorem State.setPhase_profiles (s : State) (i : LetterIx) (p : Phase) : (s.setPhase i p).profiles = s.profiles := rfl
@[simp] theorem State.setPhase_letters (s : State) (i : LetterIx) (p : Phase) : (s.setPhase i p).letters = upd s.letters i (fun l => l.map (fun l => { l with phase := p })) := rfl
@[simp] theorem State.setPhase_ctxs (s : State) (i : LetterIx) (p : Phase) : (s.setPhase i p).ctxs = s.ctxs := rfl
@[simp] theorem State.setPhase_freeSegs (s : State) (i : LetterIx) (p : Phase) : (s.setPhase i p).freeSegs = s.freeSegs := rfl
@[simp] theorem State.setPhase_capture (s : State) (i : LetterIx) (p : Phase) : (s.setPhase i p).capture = s.capture := rfl
@[simp] theorem State.setPhase_coder (s : State) (i : LetterIx) (p : Phase) : (s.setPhase i p).coder = s.coder := rfl
@[simp] theorem State.setPhase_player (s : State) (i : LetterIx) (p : Phase) : (s.setPhase i p).player = s.player := rfl
@[simp] theorem State.setPhase_drain (s : State) (i : LetterIx) (p : Phase) : (s.setPhase i p).drain = s.drain := rfl
@[simp] theorem State.setPhase_mem (s : State) (i : LetterIx) (p : Phase) : (s.setPhase i p).mem = s.mem := rfl
@[simp] theorem State.setPhase_mgmt (s : State) (i : LetterIx) (p : Phase) : (s.setPhase i p).mgmt = s.mgmt := rfl
@[simp] theorem State.setPhase_wires (s : State) (i : LetterIx) (p : Phase) : (s.setPhase i p).wires = s.wires := rfl

/-! ### modCapture -/

@[simp] theorem State.modCapture_pending (s : State) (ch : Chan) (f : Capture → Capture) : (s.modCapture ch f).pending = s.pending := rfl
@[simp] theorem State.modCapture_station (s : State) (ch : Chan) (f : Capture → Capture) : (s.modCapture ch f).station = s.station := rfl
@[simp] theorem State.modCapture_pool (s : State) (ch : Chan) (f : Capture → Capture) : (s.modCapture ch f).pool = s.pool := rfl
@[simp] theorem State.modCapture_table (s : State) (ch : Chan) (f : Capture → Capture) : (s.modCapture ch f).table = s.table := rfl
@[simp] theorem State.modCapture_profiles (s : State) (ch : Chan) (f : Capture → Capture) : (s.modCapture ch f).profiles = s.profiles := rfl
@[simp] theorem State.modCapture_letters (s : State) (ch : Chan) (f : Capture → Capture) : (s.modCapture ch f).letters = s.letters := rfl
@[simp] theorem State.modCapture_ctxs (s : State) (ch : Chan) (f : Capture → Capture) : (s.modCapture ch f).ctxs = s.ctxs := rfl
@[simp] theorem State.modCapture_freeSegs (s : State) (ch : Chan) (f : Capture → Capture) : (s.modCapture ch f).freeSegs = s.freeSegs := rfl
@[simp] theorem State.modCapture_capture (s : State) (ch : Chan) (f : Capture → Capture) : (s.modCapture ch f).capture = upd s.capture ch f := rfl
@[simp] theorem State.modCapture_coder (s : State) (ch : Chan) (f : Capture → Capture) : (s.modCapture ch f).coder = s.coder := rfl
@[simp] theorem State.modCapture_player (s : State) (ch : Chan) (f : Capture → Capture) : (s.modCapture ch f).player = s.player := rfl
@[simp] theorem State.modCapture_drain (s : State) (ch : Chan) (f : Capture → Capture) : (s.modCapture ch f).drain = s.drain := rfl
@[simp] theorem State.modCapture_mem (s : State) (ch : Chan) (f : Capture → Capture) : (s.modCapture ch f).mem = s.mem := rfl
@[simp] theorem State.modCapture_mgmt (s : State) (ch : Chan) (f : Capture → Capture) : (s.modCapture ch f).mgmt = s.mgmt := rfl
@[simp] theorem State.modCapture_wires (s : State) (ch : Chan) (f : Capture → Capture) : (s.modCapture ch f).wires = s.wires := rfl

/-! ### modCoder -/

@[simp] theorem State.modCoder_pending (s : State) (ch : Chan) (f : CoderChan → CoderChan) : (s.modCoder ch f).pending = s.pending := rfl
@[simp] theorem State.modCoder_station (s : State) (ch : Chan) (f : CoderChan → CoderChan) : (s.modCoder ch f).station = s.station := rfl
@[simp] theorem State.modCoder_pool (s : State) (ch : Chan) (f : CoderChan → CoderChan) : (s.modCoder ch f).pool = s.pool := rfl
@[simp] theorem State.modCoder_table (s : State) (ch : Chan) (f : CoderChan → CoderChan) : (s.modCoder ch f).table = s.table := rfl
@[simp] theorem State.modCoder_profiles (s : State) (ch : Chan) (f : CoderChan → CoderChan) : (s.modCoder ch f).profiles = s.profiles := rfl
@[simp] theorem State.modCoder_letters (s : State) (ch : Chan) (f : CoderChan → CoderChan) : (s.modCoder ch f).letters = s.letters := rfl
@[simp] theorem State.modCoder_ctxs (s : State) (ch : Chan) (f : CoderChan → CoderChan) : (s.modCoder ch f).ctxs = s.ctxs := rfl
@[simp] theorem State.modCoder_freeSegs (s : State) (ch : Chan) (f : CoderChan → CoderChan) : (s.modCoder ch f).freeSegs = s.freeSegs := rfl
@[simp] theorem State.modCoder_capture (s : State) (ch : Chan) (f : CoderChan → CoderChan) : (s.modCoder ch f).capture = s.capture := rfl
@[simp] theorem State.modCoder_coder (s : State) (ch : Chan) (f : CoderChan → CoderChan) : (s.modCoder ch f).coder = { s.coder with chans := upd s.coder.chans ch f } := rfl
@[simp] theorem State.modCoder_player (s : State) (ch : Chan) (f : CoderChan → CoderChan) : (s.modCoder ch f).player = s.player := rfl
@[simp] theorem State.modCoder_drain (s : State) (ch : Chan) (f : CoderChan → CoderChan) : (s.modCoder ch f).drain = s.drain := rfl
@[simp] theorem State.modCoder_mem (s : State) (ch : Chan) (f : CoderChan → CoderChan) : (s.modCoder ch f).mem = s.mem := rfl
@[simp] theorem State.modCoder_mgmt (s : State) (ch : Chan) (f : CoderChan → CoderChan) : (s.modCoder ch f).mgmt = s.mgmt := rfl
@[simp] theorem State.modCoder_wires (s : State) (ch : Chan) (f : CoderChan → CoderChan) : (s.modCoder ch f).wires = s.wires := rfl

/-! ### modPlayer -/

@[simp] theorem State.modPlayer_pending (s : State) (ch : Chan) (f : PlayerChan → PlayerChan) : (s.modPlayer ch f).pending = s.pending := rfl
@[simp] theorem State.modPlayer_station (s : State) (ch : Chan) (f : PlayerChan → PlayerChan) : (s.modPlayer ch f).station = s.station := rfl
@[simp] theorem State.modPlayer_pool (s : State) (ch : Chan) (f : PlayerChan → PlayerChan) : (s.modPlayer ch f).pool = s.pool := rfl
@[simp] theorem State.modPlayer_table (s : State) (ch : Chan) (f : PlayerChan → PlayerChan) : (s.modPlayer ch f).table = s.table := rfl
@[simp] theorem State.modPlayer_profiles (s : State) (ch : Chan) (f : PlayerChan → PlayerChan) : (s.modPlayer ch f).profiles = s.profiles := rfl
@[simp] theorem State.modPlayer_letters (s : State) (ch : Chan) (f : PlayerChan → PlayerChan) : (s.modPlayer ch f).letters = s.letters := rfl
@[simp] theorem State.modPlayer_ctxs (s : State) (ch : Chan) (f : PlayerChan → PlayerChan) : (s.modPlayer ch f).ctxs = s.ctxs := rfl
@[simp] theorem State.modPlayer_freeSegs (s : State) (ch : Chan) (f : PlayerChan → PlayerChan) : (s.modPlayer ch f).freeSegs = s.freeSegs := rfl
@[simp] theorem State.modPlayer_capture (s : State) (ch : Chan) (f : PlayerChan → PlayerChan) : (s.modPlayer ch f).capture = s.capture := rfl
@[simp] theorem State.modPlayer_coder (s : State) (ch : Chan) (f : PlayerChan → PlayerChan) : (s.modPlayer ch f).coder = s.coder := rfl
@[simp] theorem State.modPlayer_player (s : State) (ch : Chan) (f : PlayerChan → PlayerChan) : (s.modPlayer ch f).player = upd s.player ch f := rfl
@[simp] theorem State.modPlayer_drain (s : State) (ch : Chan) (f : PlayerChan → PlayerChan) : (s.modPlayer ch f).drain = s.drain := rfl
@[simp] theorem State.modPlayer_mem (s : State) (ch : Chan) (f : PlayerChan → PlayerChan) : (s.modPlayer ch f).mem = s.mem := rfl
@[simp] theorem State.modPlayer_mgmt (s : State) (ch : Chan) (f : PlayerChan → PlayerChan) : (s.modPlayer ch f).mgmt = s.mgmt := rfl
@[simp] theorem State.modPlayer_wires (s : State) (ch : Chan) (f : PlayerChan → PlayerChan) : (s.modPlayer ch f).wires = s.wires := rfl

/-! ### modReview -/

@[simp] theorem State.modReview_pending (s : State) (ch : Chan) (f : Review → Review) : (s.modReview ch f).pending = s.pending := rfl
@[simp] theorem State.modReview_station (s : State) (ch : Chan) (f : Review → Review) : (s.modReview ch f).station = s.station := rfl
@[simp] theorem State.modReview_pool (s : State) (ch : Chan) (f : Review → Review) : (s.modReview ch f).pool = s.pool := rfl
@[simp] theorem State.modReview_table (s : State) (ch : Chan) (f : Review → Review) : (s.modReview ch f).table = s.table := rfl
@[simp] theorem State.modReview_profiles (s : State) (ch : Chan) (f : Review → Review) : (s.modReview ch f).profiles = s.profiles := rfl
@[simp] theorem State.modReview_letters (s : State) (ch : Chan) (f : Review → Review) : (s.modReview ch f).letters = s.letters := rfl
@[simp] theorem State.modReview_ctxs (s : State) (ch : Chan) (f : Review → Review) : (s.modReview ch f).ctxs = s.ctxs := rfl
@[simp] theorem State.modReview_freeSegs (s : State) (ch : Chan) (f : Review → Review) : (s.modReview ch f).freeSegs = s.freeSegs := rfl
@[simp] theorem State.modReview_capture (s : State) (ch : Chan) (f : Review → Review) : (s.modReview ch f).capture = s.capture := rfl
@[simp] theorem State.modReview_coder (s : State) (ch : Chan) (f : Review → Review) : (s.modReview ch f).coder = s.coder := rfl
@[simp] theorem State.modReview_player (s : State) (ch : Chan) (f : Review → Review) : (s.modReview ch f).player = upd s.player ch (fun p => { p with review := p.review.map f }) := rfl
@[simp] theorem State.modReview_drain (s : State) (ch : Chan) (f : Review → Review) : (s.modReview ch f).drain = s.drain := rfl
@[simp] theorem State.modReview_mem (s : State) (ch : Chan) (f : Review → Review) : (s.modReview ch f).mem = s.mem := rfl
@[simp] theorem State.modReview_mgmt (s : State) (ch : Chan) (f : Review → Review) : (s.modReview ch f).mgmt = s.mgmt := rfl
@[simp] theorem State.modReview_wires (s : State) (ch : Chan) (f : Review → Review) : (s.modReview ch f).wires = s.wires := rfl

/-! ### modEntry -/

@[simp] theorem State.modEntry_pending (s : State) (ch : Chan) (f : ChannelEntry → ChannelEntry) : (s.modEntry ch f).pending = s.pending := rfl
@[simp] theorem State.modEntry_station (s : State) (ch : Chan) (f : ChannelEntry → ChannelEntry) : (s.modEntry ch f).station = s.station := rfl
@[simp] theorem State.modEntry_pool (s : State) (ch : Chan) (f : ChannelEntry → ChannelEntry) : (s.modEntry ch f).pool = s.pool := rfl
@[simp] theorem State.modEntry_table (s : State) (ch : Chan) (f : ChannelEntry → ChannelEntry) : (s.modEntry ch f).table = upd s.table ch f := rfl
@[simp] theorem State.modEntry_profiles (s : State) (ch : Chan) (f : ChannelEntry → ChannelEntry) : (s.modEntry ch f).profiles = s.profiles := rfl
@[simp] theorem State.modEntry_letters (s : State) (ch : Chan) (f : ChannelEntry → ChannelEntry) : (s.modEntry ch f).letters = s.letters := rfl
@[simp] theorem State.modEntry_ctxs (s : State) (ch : Chan) (f : ChannelEntry → ChannelEntry) : (s.modEntry ch f).ctxs = s.ctxs := rfl
@[simp] theorem State.modEntry_freeSegs (s : State) (ch : Chan) (f : ChannelEntry → ChannelEntry) : (s.modEntry ch f).freeSegs = s.freeSegs := rfl
@[simp] theorem State.modEntry_capture (s : State) (ch : Chan) (f : ChannelEntry → ChannelEntry) : (s.modEntry ch f).capture = s.capture := rfl
@[simp] theorem State.modEntry_coder (s : State) (ch : Chan) (f : ChannelEntry → ChannelEntry) : (s.modEntry ch f).coder = s.coder := rfl
@[simp] theorem State.modEntry_player (s : State) (ch : Chan) (f : ChannelEntry → ChannelEntry) : (s.modEntry ch f).player = s.player := rfl
@[simp] theorem State.modEntry_drain (s : State) (ch : Chan) (f : ChannelEntry → ChannelEntry) : (s.modEntry ch f).drain = s.drain := rfl
@[simp] theorem State.modEntry_mem (s : State) (ch : Chan) (f : ChannelEntry → ChannelEntry) : (s.modEntry ch f).mem = s.mem := rfl
@[simp] theorem State.modEntry_mgmt (s : State) (ch : Chan) (f : ChannelEntry → ChannelEntry) : (s.modEntry ch f).mgmt = s.mgmt := rfl
@[simp] theorem State.modEntry_wires (s : State) (ch : Chan) (f : ChannelEntry → ChannelEntry) : (s.modEntry ch f).wires = s.wires := rfl

/-! ### modSlot -/

@[simp] theorem State.modSlot_pending (s : State) (k : Slot) (f : ProfileSlot → ProfileSlot) : (s.modSlot k f).pending = s.pending := rfl
@[simp] theorem State.modSlot_station (s : State) (k : Slot) (f : ProfileSlot → ProfileSlot) : (s.modSlot k f).station = s.station := rfl
@[simp] theorem State.modSlot_pool (s : State) (k : Slot) (f : ProfileSlot → ProfileSlot) : (s.modSlot k f).pool = s.pool := rfl
@[simp] theorem State.modSlot_table (s : State) (k : Slot) (f : ProfileSlot → ProfileSlot) : (s.modSlot k f).table = s.table := rfl
@[simp] theorem State.modSlot_profiles (s : State) (k : Slot) (f : ProfileSlot → ProfileSlot) : (s.modSlot k f).profiles = upd s.profiles k f := rfl
@[simp] theorem State.modSlot_letters (s : State) (k : Slot) (f : ProfileSlot → ProfileSlot) : (s.modSlot k f).letters = s.letters := rfl
@[simp] theorem State.modSlot_ctxs (s : State) (k : Slot) (f : ProfileSlot → ProfileSlot) : (s.modSlot k f).ctxs = s.ctxs := rfl
@[simp] theorem State.modSlot_freeSegs (s : State) (k : Slot) (f : ProfileSlot → ProfileSlot) : (s.modSlot k f).freeSegs = s.freeSegs := rfl
@[simp] theorem State.modSlot_capture (s : State) (k : Slot) (f : ProfileSlot → ProfileSlot) : (s.modSlot k f).capture = s.capture := rfl
@[simp] theorem State.modSlot_coder (s : State) (k : Slot) (f : ProfileSlot → ProfileSlot) : (s.modSlot k f).coder = s.coder := rfl
@[simp] theorem State.modSlot_player (s : State) (k : Slot) (f : ProfileSlot → ProfileSlot) : (s.modSlot k f).player = s.player := rfl
@[simp] theorem State.modSlot_drain (s : State) (k : Slot) (f : ProfileSlot → ProfileSlot) : (s.modSlot k f).drain = s.drain := rfl
@[simp] theorem State.modSlot_mem (s : State) (k : Slot) (f : ProfileSlot → ProfileSlot) : (s.modSlot k f).mem = s.mem := rfl
@[simp] theorem State.modSlot_mgmt (s : State) (k : Slot) (f : ProfileSlot → ProfileSlot) : (s.modSlot k f).mgmt = s.mgmt := rfl
@[simp] theorem State.modSlot_wires (s : State) (k : Slot) (f : ProfileSlot → ProfileSlot) : (s.modSlot k f).wires = s.wires := rfl

/-! ### modDrain -/

@[simp] theorem State.modDrain_pending (s : State) (f : Drain → Drain) : (s.modDrain f).pending = s.pending := rfl
@[simp] theorem State.modDrain_station (s : State) (f : Drain → Drain) : (s.modDrain f).station = s.station := rfl
@[simp] theorem State.modDrain_pool (s : State) (f : Drain → Drain) : (s.modDrain f).pool = s.pool := rfl
@[simp] theorem State.modDrain_table (s : State) (f : Drain → Drain) : (s.modDrain f).table = s.table := rfl
@[simp] theorem State.modDrain_profiles (s : State) (f : Drain → Drain) : (s.modDrain f).profiles = s.profiles := rfl
@[simp] theorem State.modDrain_letters (s : State) (f : Drain → Drain) : (s.modDrain f).letters = s.letters := rfl
@[simp] theorem State.modDrain_ctxs (s : State) (f : Drain → Drain) : (s.modDrain f).ctxs = s.ctxs := rfl
@[simp] theorem State.modDrain_freeSegs (s : State) (f : Drain → Drain) : (s.modDrain f).freeSegs = s.freeSegs := rfl
@[simp] theorem State.modDrain_capture (s : State) (f : Drain → Drain) : (s.modDrain f).capture = s.capture := rfl
@[simp] theorem State.modDrain_coder (s : State) (f : Drain → Drain) : (s.modDrain f).coder = s.coder := rfl
@[simp] theorem State.modDrain_player (s : State) (f : Drain → Drain) : (s.modDrain f).player = s.player := rfl
@[simp] theorem State.modDrain_drain (s : State) (f : Drain → Drain) : (s.modDrain f).drain = f s.drain := rfl
@[simp] theorem State.modDrain_mem (s : State) (f : Drain → Drain) : (s.modDrain f).mem = s.mem := rfl
@[simp] theorem State.modDrain_mgmt (s : State) (f : Drain → Drain) : (s.modDrain f).mgmt = s.mgmt := rfl
@[simp] theorem State.modDrain_wires (s : State) (f : Drain → Drain) : (s.modDrain f).wires = s.wires := rfl

/-! ### modMem -/

@[simp] theorem State.modMem_pending (s : State) (f : BlockMemory → BlockMemory) : (s.modMem f).pending = s.pending := rfl
@[simp] theorem State.modMem_station (s : State) (f : BlockMemory → BlockMemory) : (s.modMem f).station = s.station := rfl
@[simp] theorem State.modMem_pool (s : State) (f : BlockMemory → BlockMemory) : (s.modMem f).pool = s.pool := rfl
@[simp] theorem State.modMem_table (s : State) (f : BlockMemory → BlockMemory) : (s.modMem f).table = s.table := rfl
@[simp] theorem State.modMem_profiles (s : State) (f : BlockMemory → BlockMemory) : (s.modMem f).profiles = s.profiles := rfl
@[simp] theorem State.modMem_letters (s : State) (f : BlockMemory → BlockMemory) : (s.modMem f).letters = s.letters := rfl
@[simp] theorem State.modMem_ctxs (s : State) (f : BlockMemory → BlockMemory) : (s.modMem f).ctxs = s.ctxs := rfl
@[simp] theorem State.modMem_freeSegs (s : State) (f : BlockMemory → BlockMemory) : (s.modMem f).freeSegs = s.freeSegs := rfl
@[simp] theorem State.modMem_capture (s : State) (f : BlockMemory → BlockMemory) : (s.modMem f).capture = s.capture := rfl
@[simp] theorem State.modMem_coder (s : State) (f : BlockMemory → BlockMemory) : (s.modMem f).coder = s.coder := rfl
@[simp] theorem State.modMem_player (s : State) (f : BlockMemory → BlockMemory) : (s.modMem f).player = s.player := rfl
@[simp] theorem State.modMem_drain (s : State) (f : BlockMemory → BlockMemory) : (s.modMem f).drain = s.drain := rfl
@[simp] theorem State.modMem_mem (s : State) (f : BlockMemory → BlockMemory) : (s.modMem f).mem = f s.mem := rfl
@[simp] theorem State.modMem_mgmt (s : State) (f : BlockMemory → BlockMemory) : (s.modMem f).mgmt = s.mgmt := rfl
@[simp] theorem State.modMem_wires (s : State) (f : BlockMemory → BlockMemory) : (s.modMem f).wires = s.wires := rfl

/-! ### modMgmt -/

@[simp] theorem State.modMgmt_pending (s : State) (f : Management → Management) : (s.modMgmt f).pending = s.pending := rfl
@[simp] theorem State.modMgmt_station (s : State) (f : Management → Management) : (s.modMgmt f).station = s.station := rfl
@[simp] theorem State.modMgmt_pool (s : State) (f : Management → Management) : (s.modMgmt f).pool = s.pool := rfl
@[simp] theorem State.modMgmt_table (s : State) (f : Management → Management) : (s.modMgmt f).table = s.table := rfl
@[simp] theorem State.modMgmt_profiles (s : State) (f : Management → Management) : (s.modMgmt f).profiles = s.profiles := rfl
@[simp] theorem State.modMgmt_letters (s : State) (f : Management → Management) : (s.modMgmt f).letters = s.letters := rfl
@[simp] theorem State.modMgmt_ctxs (s : State) (f : Management → Management) : (s.modMgmt f).ctxs = s.ctxs := rfl
@[simp] theorem State.modMgmt_freeSegs (s : State) (f : Management → Management) : (s.modMgmt f).freeSegs = s.freeSegs := rfl
@[simp] theorem State.modMgmt_capture (s : State) (f : Management → Management) : (s.modMgmt f).capture = s.capture := rfl
@[simp] theorem State.modMgmt_coder (s : State) (f : Management → Management) : (s.modMgmt f).coder = s.coder := rfl
@[simp] theorem State.modMgmt_player (s : State) (f : Management → Management) : (s.modMgmt f).player = s.player := rfl
@[simp] theorem State.modMgmt_drain (s : State) (f : Management → Management) : (s.modMgmt f).drain = s.drain := rfl
@[simp] theorem State.modMgmt_mem (s : State) (f : Management → Management) : (s.modMgmt f).mem = s.mem := rfl
@[simp] theorem State.modMgmt_mgmt (s : State) (f : Management → Management) : (s.modMgmt f).mgmt = f s.mgmt := rfl
@[simp] theorem State.modMgmt_wires (s : State) (f : Management → Management) : (s.modMgmt f).wires = s.wires := rfl

/-! ### modWires -/

@[simp] theorem State.modWires_pending (s : State) (f : Wires → Wires) : (s.modWires f).pending = s.pending := rfl
@[simp] theorem State.modWires_station (s : State) (f : Wires → Wires) : (s.modWires f).station = s.station := rfl
@[simp] theorem State.modWires_pool (s : State) (f : Wires → Wires) : (s.modWires f).pool = s.pool := rfl
@[simp] theorem State.modWires_table (s : State) (f : Wires → Wires) : (s.modWires f).table = s.table := rfl
@[simp] theorem State.modWires_profiles (s : State) (f : Wires → Wires) : (s.modWires f).profiles = s.profiles := rfl
@[simp] theorem State.modWires_letters (s : State) (f : Wires → Wires) : (s.modWires f).letters = s.letters := rfl
@[simp] theorem State.modWires_ctxs (s : State) (f : Wires → Wires) : (s.modWires f).ctxs = s.ctxs := rfl
@[simp] theorem State.modWires_freeSegs (s : State) (f : Wires → Wires) : (s.modWires f).freeSegs = s.freeSegs := rfl
@[simp] theorem State.modWires_capture (s : State) (f : Wires → Wires) : (s.modWires f).capture = s.capture := rfl
@[simp] theorem State.modWires_coder (s : State) (f : Wires → Wires) : (s.modWires f).coder = s.coder := rfl
@[simp] theorem State.modWires_player (s : State) (f : Wires → Wires) : (s.modWires f).player = s.player := rfl
@[simp] theorem State.modWires_drain (s : State) (f : Wires → Wires) : (s.modWires f).drain = s.drain := rfl
@[simp] theorem State.modWires_mem (s : State) (f : Wires → Wires) : (s.modWires f).mem = s.mem := rfl
@[simp] theorem State.modWires_mgmt (s : State) (f : Wires → Wires) : (s.modWires f).mgmt = s.mgmt := rfl
@[simp] theorem State.modWires_wires (s : State) (f : Wires → Wires) : (s.modWires f).wires = f s.wires := rfl

/-! ### modStation -/

@[simp] theorem State.modStation_pending (s : State) (f : StationPort → StationPort) : (s.modStation f).pending = s.pending := rfl
@[simp] theorem State.modStation_station (s : State) (f : StationPort → StationPort) : (s.modStation f).station = f s.station := rfl
@[simp] theorem State.modStation_pool (s : State) (f : StationPort → StationPort) : (s.modStation f).pool = s.pool := rfl
@[simp] theorem State.modStation_table (s : State) (f : StationPort → StationPort) : (s.modStation f).table = s.table := rfl
@[simp] theorem State.modStation_profiles (s : State) (f : StationPort → StationPort) : (s.modStation f).profiles = s.profiles := rfl
@[simp] theorem State.modStation_letters (s : State) (f : StationPort → StationPort) : (s.modStation f).letters = s.letters := rfl
@[simp] theorem State.modStation_ctxs (s : State) (f : StationPort → StationPort) : (s.modStation f).ctxs = s.ctxs := rfl
@[simp] theorem State.modStation_freeSegs (s : State) (f : StationPort → StationPort) : (s.modStation f).freeSegs = s.freeSegs := rfl
@[simp] theorem State.modStation_capture (s : State) (f : StationPort → StationPort) : (s.modStation f).capture = s.capture := rfl
@[simp] theorem State.modStation_coder (s : State) (f : StationPort → StationPort) : (s.modStation f).coder = s.coder := rfl
@[simp] theorem State.modStation_player (s : State) (f : StationPort → StationPort) : (s.modStation f).player = s.player := rfl
@[simp] theorem State.modStation_drain (s : State) (f : StationPort → StationPort) : (s.modStation f).drain = s.drain := rfl
@[simp] theorem State.modStation_mem (s : State) (f : StationPort → StationPort) : (s.modStation f).mem = s.mem := rfl
@[simp] theorem State.modStation_mgmt (s : State) (f : StationPort → StationPort) : (s.modStation f).mgmt = s.mgmt := rfl
@[simp] theorem State.modStation_wires (s : State) (f : StationPort → StationPort) : (s.modStation f).wires = s.wires := rfl

/-! ### modPool -/

@[simp] theorem State.modPool_pending (s : State) (f : PoolPort → PoolPort) : (s.modPool f).pending = s.pending := rfl
@[simp] theorem State.modPool_station (s : State) (f : PoolPort → PoolPort) : (s.modPool f).station = s.station := rfl
@[simp] theorem State.modPool_pool (s : State) (f : PoolPort → PoolPort) : (s.modPool f).pool = f s.pool := rfl
@[simp] theorem State.modPool_table (s : State) (f : PoolPort → PoolPort) : (s.modPool f).table = s.table := rfl
@[simp] theorem State.modPool_profiles (s : State) (f : PoolPort → PoolPort) : (s.modPool f).profiles = s.profiles := rfl
@[simp] theorem State.modPool_letters (s : State) (f : PoolPort → PoolPort) : (s.modPool f).letters = s.letters := rfl
@[simp] theorem State.modPool_ctxs (s : State) (f : PoolPort → PoolPort) : (s.modPool f).ctxs = s.ctxs := rfl
@[simp] theorem State.modPool_freeSegs (s : State) (f : PoolPort → PoolPort) : (s.modPool f).freeSegs = s.freeSegs := rfl
@[simp] theorem State.modPool_capture (s : State) (f : PoolPort → PoolPort) : (s.modPool f).capture = s.capture := rfl
@[simp] theorem State.modPool_coder (s : State) (f : PoolPort → PoolPort) : (s.modPool f).coder = s.coder := rfl
@[simp] theorem State.modPool_player (s : State) (f : PoolPort → PoolPort) : (s.modPool f).player = s.player := rfl
@[simp] theorem State.modPool_drain (s : State) (f : PoolPort → PoolPort) : (s.modPool f).drain = s.drain := rfl
@[simp] theorem State.modPool_mem (s : State) (f : PoolPort → PoolPort) : (s.modPool f).mem = s.mem := rfl
@[simp] theorem State.modPool_mgmt (s : State) (f : PoolPort → PoolPort) : (s.modPool f).mgmt = s.mgmt := rfl
@[simp] theorem State.modPool_wires (s : State) (f : PoolPort → PoolPort) : (s.modPool f).wires = s.wires := rfl

/-! ### One entry of a table -/

@[simp] theorem upd_same {α : Type} {n : Nat} (v : Vector α n) (i : Fin n) (f : α → α) :
    (upd v i f)[i.val] = f v[i.val] := by
  simp [upd]

theorem upd_ne {α : Type} {n : Nat} (v : Vector α n) {i j : Fin n} (f : α → α) (h : j ≠ i) :
    (upd v i f)[j.val] = v[j.val] := by
  have h' : i.val ≠ j.val := fun e => h (Fin.ext e.symm)
  simp [upd, Vector.getElem_set_ne, h']

/-- An entry of a table after the change of one entry. -/
theorem upd_get {α : Type} {n : Nat} (v : Vector α n) (i j : Fin n) (f : α → α) :
    (upd v i f)[j] = if j = i then f v[j] else v[j] := by
  by_cases h : j = i
  · subst h; rw [if_pos rfl]; exact upd_same v j f
  · rw [if_neg h]; exact upd_ne v f h

end Sys2Proof.Machine
end

