-- ==== Sys2Proof/Laws/Frames.lean ====
section
/-! SUPPORT. The frame of each shared operation: the fields of the state it can change. A lemma `<operation>_frame` says that the
operation's state is the state before with those fields replaced; every other field is read off from it by `congrArg`. -/

namespace Sys2Proof.Machine

/-! ### Block memory -/

theorem request_frame (s : State) (a : Access) : s.request a = { s with mem := (s.request a).mem } := by
  unfold State.request; split <;> rfl

theorem placeLoc_frame (s : State) (n : Nat) :
    s.placeLoc n = { s with mem := (s.placeLoc n).mem, mgmt := (s.placeLoc n).mgmt } := by
  unfold State.placeLoc; dsimp only; split <;> rfl

theorem handBack_frame (s : State) (n : Nat) :
    s.handBack n = { s with mem := (s.handBack n).mem, mgmt := (s.handBack n).mgmt } := by
  unfold State.handBack
  split
  · split
    · exact placeLoc_frame s n
    · rfl
  · rfl

theorem handBackAll_frame (s : State) (ns : List Nat) :
    s.handBackAll ns = { s with mem := (s.handBackAll ns).mem, mgmt := (s.handBackAll ns).mgmt } := by
  induction ns generalizing s with
  | nil => rfl
  | cons n rest ih =>
    have e : s.handBackAll (n :: rest) = (s.handBack n).handBackAll rest := rfl
    have h := ih (s.handBack n)
    rw [e]
    rw [handBack_frame s n] at h ⊢
    exact h

theorem settle_frame (s : State) (n : Nat) : s.settle n = { s with mem := (s.settle n).mem, mgmt := (s.settle n).mgmt } := by
  unfold State.settle
  split
  · exact placeLoc_frame s n
  · rfl

theorem completeRead_frame (s : State) (n : Nat) (ctx : Option ReadContext) (found : List BitError) :
    s.completeRead n ctx found = { s with mem := (s.completeRead n ctx found).mem, mgmt := (s.completeRead n ctx found).mgmt,
                                          wires := (s.completeRead n ctx found).wires } := by
  have hs : ∀ t : State, t.settle n = { t with mem := (t.settle n).mem, mgmt := (t.settle n).mgmt } := fun t => settle_frame t n
  unfold State.completeRead State.afterRead
  split
  · rw [hs]; rfl
  · rw [hs]; rfl
  · dsimp only
    split
    · rw [hs]; rfl
    · split
      · rfl
      · rw [hs]; rfl
      · rfl

/-! ### Replies, detections and notices -/

theorem pushReply_frame (s : State) (ch : Chan) (r : KeyReply) :
    s.pushReply ch r = { s with station := (s.pushReply ch r).station } := rfl

theorem answer_frame (s : State) (ch : Chan) (code : Byte) (result : KeyResult) (v : LetterView) :
    s.answer ch code result v = { s with station := (s.answer ch code result v).station, mgmt := (s.answer ch code result v).mgmt } := by
  unfold State.answer; dsimp only; split <;> rfl

theorem makeNotice_frame (s : State) (n : Notice) :
    s.makeNotice n = { s with pool := (s.makeNotice n).pool, mgmt := (s.makeNotice n).mgmt } := by
  unfold State.makeNotice; split <;> rfl

theorem recordDetection_frame (s : State) (c : FaultContext) :
    s.recordDetection c = { s with pool := (s.recordDetection c).pool, mgmt := (s.recordDetection c).mgmt } := by
  unfold State.recordDetection; dsimp only
  split
  · rw [makeNotice_frame]; rfl
  · rfl

theorem queueReply_frame (s : State) (r : Reply) :
    s.queueReply r = { s with pool := (s.queueReply r).pool, mgmt := (s.queueReply r).mgmt } := rfl

theorem joinReply_plain (s : State) (r : Reply) (h : r.softResetOk = false) : s.joinReply r = s.queueReply r := by
  simp [State.joinReply, h]

/-- The OK of a SOFT-RESET joins, and the reset is taken (R180). -/
theorem joinReply_softReset (s : State) (r : Reply) (h : r.softResetOk = true) : s.joinReply r = (s.queueReply r).softReset := by
  simp [State.joinReply, h]

theorem softResetOk_iff (r : Reply) : r.softResetOk = true ↔ r.kind = 0x14#8 ∧ r.status = .ok := by
  simp [Reply.softResetOk]

/-- A reply other than a SOFT-RESET's OK is handed without a change to anything but the control queue and the held reply (R166). -/
theorem handReply_frame (s : State) (r : Reply) (h : r.softResetOk = false) :
    s.handReply r = { s with pool := (s.handReply r).pool, mgmt := (s.handReply r).mgmt } := by
  unfold State.handReply
  split
  · rw [joinReply_plain s r h]; rfl
  · rfl

theorem readSlot_frame (s : State) (k : Slot) (number : Option Nat) (ch : Chan) (pos : Option Nat) :
    (s.readSlot k number ch pos).1 =
      { s with profiles := (s.readSlot k number ch pos).1.profiles, wires := (s.readSlot k number ch pos).1.wires } := by
  unfold State.readSlot; split
  · rfl
  · split <;> rfl

/-! ### Upsets and the tables -/

theorem upset_frame (s : State) (u : Upset) : s.upset u = { s with table := (s.upset u).table, profiles := (s.upset u).profiles } := by
  unfold State.upset
  split
  · rfl
  · cases u <;> rfl

theorem upsets_frame (s : State) (us : List Upset) :
    s.upsets us = { s with table := (s.upsets us).table, profiles := (s.upsets us).profiles } := by
  induction us generalizing s with
  | nil => rfl
  | cons u rest ih =>
    have e : s.upsets (u :: rest) = (s.upset u).upsets rest := rfl
    have h := ih (s.upset u)
    rw [e]
    rw [upset_frame s u] at h ⊢
    exact h

theorem applyPendingCopy_frame (s : State) (ch : Chan) :
    (s.applyPendingCopy ch).1 = { s with table := (s.applyPendingCopy ch).1.table } := by
  unfold State.applyPendingCopy; split
  · rfl
  · split <;> rfl

/-! ### The Drain Engine in an event that lets it act -/

theorem startDelivery_frame (s : State) (i : LetterIx) :
    s.startDelivery i = { s with letters := (s.startDelivery i).letters, drain := (s.startDelivery i).drain } := by
  unfold State.startDelivery
  split
  · rfl
  · split <;> rfl

theorem startNext_frame (s : State) : s.startNext = { s with letters := s.startNext.letters, drain := s.startNext.drain } := by
  unfold State.startNext
  split
  · exact startDelivery_frame s _
  · rfl

theorem takeDrainStart_frame (s : State) :
    s.takeDrainStart = { s with letters := s.takeDrainStart.letters, drain := s.takeDrainStart.drain } := by
  unfold State.takeDrainStart
  split
  · exact startNext_frame s
  · rfl

theorem giveWay_frame (s : State) (d : Delivery) (ticket : Nat) :
    s.giveWay d ticket = { s with letters := (s.giveWay d ticket).letters, drain := (s.giveWay d ticket).drain } := by
  unfold State.giveWay; split <;> rfl

theorem takeSuspension_frame (s : State) :
    s.takeSuspension = { s with letters := s.takeSuspension.letters, drain := s.takeSuspension.drain } := by
  unfold State.takeSuspension
  split
  · rfl
  · split
    · split
      · rw [startDelivery_frame, giveWay_frame]
      · rfl
    · rfl

theorem queueGrew_frame (s : State) : s.queueGrew = { s with letters := s.queueGrew.letters, drain := s.queueGrew.drain } := by
  unfold State.queueGrew
  split
  · exact takeDrainStart_frame s
  · split
    · rfl
    · exact takeSuspension_frame s

/-! ### Letters -/

theorem freeLetter_frame (s : State) (i : LetterIx) :
    s.freeLetter i = { s with profiles := (s.freeLetter i).profiles, letters := (s.freeLetter i).letters,
                              freeSegs := (s.freeLetter i).freeSegs, mem := (s.freeLetter i).mem, mgmt := (s.freeLetter i).mgmt } := by
  unfold State.freeLetter
  split
  · rfl
  · rw [handBackAll_frame]; rfl

theorem enqueue_frame (s : State) (i : LetterIx) :
    s.enqueue i = { s with letters := (s.enqueue i).letters, drain := (s.enqueue i).drain } := rfl

theorem closeCurrent_frame (s : State) (ch : Chan) :
    s.closeCurrent ch = { s with profiles := (s.closeCurrent ch).profiles, letters := (s.closeCurrent ch).letters,
                                 ctxs := (s.closeCurrent ch).ctxs, freeSegs := (s.closeCurrent ch).freeSegs,
                                 drain := (s.closeCurrent ch).drain, mem := (s.closeCurrent ch).mem,
                                 mgmt := (s.closeCurrent ch).mgmt, wires := (s.closeCurrent ch).wires } := by
  unfold State.closeCurrent
  split
  · rfl
  · dsimp only
    split
    · rw [freeLetter_frame]; rfl
    · rw [queueGrew_frame]; rfl

theorem forceStopTake_frame (s : State) (ch : Chan) (c : StopCause) :
    s.forceStopTake ch c = { s with station := (s.forceStopTake ch c).station, letters := (s.forceStopTake ch c).letters,
                                    wires := (s.forceStopTake ch c).wires } := by
  unfold State.forceStopTake
  split
  · rfl
  · split
    · rfl
    · dsimp only
      split <;> split <;> first | rfl | (split <;> rfl)

theorem stopReview_frame (s : State) (ch : Chan) :
    s.stopReview ch = { s with player := (s.stopReview ch).player, mem := (s.stopReview ch).mem } := rfl

/-! ### Capture and the Coder -/

theorem captureFrame_frame (s : State) (ch : Chan) (seq : Word16) (xs : List Sample) :
    s.captureFrame ch seq xs = { s with capture := (s.captureFrame ch seq xs).capture, mgmt := (s.captureFrame ch seq xs).mgmt } := by
  unfold State.captureFrame
  dsimp only
  split
  · rfl
  · split
    · rfl
    · split <;> rfl

theorem endOfTakeCheck_frame (s : State) (ch : Chan) :
    s.endOfTakeCheck ch = { s with capture := (s.endOfTakeCheck ch).capture, wires := (s.endOfTakeCheck ch).wires } := by
  unfold State.endOfTakeCheck; split <;> rfl

theorem takeCaptureRequest_frame (s : State) (ch : Chan) (r : CaptureRequest) :
    s.takeCaptureRequest ch r = { s with capture := (s.takeCaptureRequest ch r).capture, mgmt := (s.takeCaptureRequest ch r).mgmt,
                                         wires := (s.takeCaptureRequest ch r).wires } := by
  cases r
  · simp only [State.takeCaptureRequest, State.finishCapture]
    split
    · rw [endOfTakeCheck_frame]; rfl
    · rfl
  · simp only [State.takeCaptureRequest, State.discardCapture]
    split
    · rfl
    · rw [endOfTakeCheck_frame]; rfl
  · simp only [State.takeCaptureRequest, State.cancelCapture]
    split <;> rfl

/-! ### The drain -/

theorem resume_frame (s : State) (d : Delivery) :
    s.resume d = { s with letters := (s.resume d).letters, drain := (s.resume d).drain } := by
  unfold State.resume
  split
  · rfl
  · split <;> rfl

theorem chooseNext_frame (s : State) : s.chooseNext = { s with letters := s.chooseNext.letters, drain := s.chooseNext.drain } := by
  unfold State.chooseNext
  split
  · exact startDelivery_frame s _
  · exact resume_frame s _
  · exact startNext_frame s

theorem endDelivery_frame (s : State) (d : Delivery) (f : PartCounters → PartCounters) :
    s.endDelivery d f = { s with profiles := (s.endDelivery d f).profiles, letters := (s.endDelivery d f).letters,
                                 freeSegs := (s.endDelivery d f).freeSegs, drain := (s.endDelivery d f).drain,
                                 mem := (s.endDelivery d f).mem, mgmt := (s.endDelivery d f).mgmt } := by
  unfold State.endDelivery
  rw [chooseNext_frame, freeLetter_frame]
  rfl

end Sys2Proof.Machine
end

