-- ==== Sys2Proof/Laws/Entries.lean ====
section
/-! SUPPORT. What a read of a channel entry, an idle timer start, an evaluation of a key, an execution of a request and the forming of a drain
record come to, where the conditions of their normal course hold; and the frames of the operations that read an entry. -/

namespace Sys2Proof.Machine

/-! ### Reads of an entry -/

/-- A read of a GOOD entry whose parity is right delivers its settings and changes nothing (R137, R143). -/
theorem readEntry_good (s : State) (ch : Chan) (st : Settings) (hd : s.table[ch].damaged = false)
    (hc : s.table[ch].inForce = { settings := st, parityOk := true }) : s.readEntry ch = (s, some st) := by
  simp only [Fin.getElem_fin] at hd hc
  simp [State.readEntry, hd, hc]

/-- A read of a DAMAGED entry delivers nothing and changes nothing (R144). -/
theorem readEntry_damaged (s : State) (ch : Chan) (hd : s.table[ch].damaged = true) : s.readEntry ch = (s, none) := by
  simp only [Fin.getElem_fin] at hd
  simp [State.readEntry, hd]

/-- A read that finds the parity of a GOOD entry wrong delivers nothing, and R143 deals with the entry. -/
theorem readEntry_bad (s : State) (ch : Chan) (hd : s.table[ch].damaged = false) (hc : s.table[ch].inForce.parityOk = false) :
    s.readEntry ch = (s.damageEntry ch, none) := by
  simp only [Fin.getElem_fin] at hd hc
  simp [State.readEntry, hd, hc]

/-- The start of an idle timer under a GOOD entry whose parity is right (R7). -/
theorem startIdle_good (s : State) (ch : Chan) (st : Settings) (hd : s.table[ch].damaged = false)
    (hc : s.table[ch].inForce = { settings := st, parityOk := true }) :
    s.startIdle ch = s.modCtx ch (fun c => { c with idle := if st.minutes = 0 then none else some st.minutes }) := by
  rw [State.startIdle, readEntry_good s ch st hd hc]

/-- The start of an idle timer under a DAMAGED entry leaves it stopped (R145). -/
theorem startIdle_damaged (s : State) (ch : Chan) (hd : s.table[ch].damaged = true) :
    s.startIdle ch = s.modCtx ch (fun c => { c with idle := none }) := by
  rw [State.startIdle, readEntry_damaged s ch hd]

/-- A read of a slot whose parity is right and which is not DAMAGED (R55). -/
theorem readSlot_good (s : State) (k : Slot) (number : Option Nat) (ch : Chan) (pos : Option Nat)
    (hs : s.profiles[k].status ≠ .damaged) (hp : s.profiles[k].parityOk = true) :
    s.readSlot k number ch pos = (s, some s.profiles[k].contents) := by
  simp only [Fin.getElem_fin] at hs hp
  simp [State.readSlot, hs, hp]

/-- A read of a DAMAGED slot (R55). -/
theorem readSlot_damaged (s : State) (k : Slot) (number : Option Nat) (ch : Chan) (pos : Option Nat)
    (hs : s.profiles[k].status = .damaged) : s.readSlot k number ch pos = (s, none) := by
  simp only [Fin.getElem_fin] at hs
  simp [State.readSlot, hs]

/-! ### Keys and requests -/

/-- A key of the kind asked for is taken (R9). -/
theorem takeKey_eq (s : State) (ch : Chan) (us : List Upset) (h : Option HandsetKey) (k : Key) (rest : List Key)
    (hk : s.wires.keys[ch] = k :: rest) (hc : keyOfCode k.code = h) :
    s.takeKey ch us h =
      (((s.upsets us).modWires (fun w => { w with keys := upd w.keys ch (fun _ => rest) })).count ch (ChanCounters.addTaken 1)).evalKey
        ch k := by
  unfold State.takeKey
  rw [hk]
  simp [hc]

/-- Only a FAILED controller stops a key at step 3 (R9). -/
theorem stopsFailed_ready (s : State) (code : Byte) (h : s.mem.ctrl ≠ .failed) : s.stopsFailed code = false := by
  simp [State.stopsFailed, h]

/-- Under a FAILED controller every key but the motion keys and END-LETTER is stopped (R9). -/
theorem stopsFailed_failed (s : State) (code : Byte) (h : s.mem.ctrl = .failed) : s.stopsFailed code = !passesFailed code := by
  simp [State.stopsFailed, h]

/-- The evaluation of a key under a GOOD COMPRESS entry whose parity is right goes on to steps 2 to 4 (R9). -/
theorem evalKey_good (s : State) (ch : Chan) (k : Key) (st : Settings) (hd : s.table[ch].damaged = false)
    (hc : s.table[ch].inForce = { settings := st, parityOk := true }) (hm : st.mode = .compress) (hk : k.spoilt = false) :
    s.evalKey ch k =
      ((s.modCtx ch (fun c => { c with armed := false })).restartIdle ch).keySteps ch st s.ctxs[ch].armed k := by
  unfold State.evalKey
  dsimp only
  rw [readEntry_good _ ch st (by simpa using hd) (by simpa using hc)]
  simp [hm, hk]

/-- The execution of a head request whose kind and length fit, outside INIT (R166). -/
theorem execute_eq (s : State) (kind : Byte) (act : List Byte → State → Executed) (r : Request) (hr : s.headRequest = some r)
    (hk : r.kind = kind) (hf : r.fits = true) (hi : s.mem.ctrl ≠ .init) :
    s.execute kind act = (act r.fields s.popRequest).state.handReply
      { kind := kind, tag := r.tag, status := (act r.fields s.popRequest).status, fields := (act r.fields s.popRequest).fields } := by
  subst hk
  have hi' : s.popRequest.mem.ctrl ≠ .init := hi
  simp [State.execute, hr, hf, hi']

/-- The execution of a head request in INIT is answered STARTING (R166). -/
theorem execute_starting (s : State) (kind : Byte) (act : List Byte → State → Executed) (r : Request) (hr : s.headRequest = some r)
    (hk : r.kind = kind) (hf : r.fits = true) (hi : s.mem.ctrl = .init) :
    s.execute kind act = s.popRequest.handReply { kind := kind, tag := r.tag, status := .starting, fields := [] } := by
  subst hk
  have hi' : s.popRequest.mem.ctrl = .init := hi
  simp [State.execute, hr, hf, hi']

/-- Where the head request is of another kind, or there is none, an execution does not occur. -/
theorem execute_other (s : State) (kind : Byte) (act : List Byte → State → Executed)
    (h : ∀ r, s.headRequest = some r → ¬(r.kind = kind ∧ r.fits = true)) : s.execute kind act = s := by
  unfold State.execute
  split
  · rfl
  · rename_i r e
    rw [if_neg (h r e)]

/-! ### Frames -/

theorem entryStop_frame (s : State) (ch : Chan) :
    s.entryStop ch = { s with station := (s.entryStop ch).station, profiles := (s.entryStop ch).profiles,
                              letters := (s.entryStop ch).letters, ctxs := (s.entryStop ch).ctxs,
                              freeSegs := (s.entryStop ch).freeSegs, player := (s.entryStop ch).player,
                              drain := (s.entryStop ch).drain, mem := (s.entryStop ch).mem, mgmt := (s.entryStop ch).mgmt,
                              wires := (s.entryStop ch).wires } := by
  unfold State.entryStop
  split
  · rfl
  · split
    · rw [forceStopTake_frame]
    · rw [forceStopTake_frame]
    · rw [closeCurrent_frame]; rfl
    · rw [closeCurrent_frame]; rfl
    · rfl

theorem takePendingCopy_frame (s : State) (ch : Chan) :
    s.takePendingCopy ch = { s with station := (s.takePendingCopy ch).station, table := (s.takePendingCopy ch).table,
                                    profiles := (s.takePendingCopy ch).profiles, letters := (s.takePendingCopy ch).letters,
                                    ctxs := (s.takePendingCopy ch).ctxs, freeSegs := (s.takePendingCopy ch).freeSegs,
                                    player := (s.takePendingCopy ch).player, drain := (s.takePendingCopy ch).drain,
                                    mem := (s.takePendingCopy ch).mem, mgmt := (s.takePendingCopy ch).mgmt,
                                    wires := (s.takePendingCopy ch).wires } := by
  have h := applyPendingCopy_frame s ch
  unfold State.takePendingCopy
  split
  · rename_i s1 e
    rw [e] at h
    dsimp only at h
    rw [h]
  · rename_i s1 c e
    rw [e] at h
    dsimp only at h
    split
    · rw [h]; rfl
    · rw [entryStop_frame, h]; rfl

/-- A pending copy with its parity right becomes the in-force copy of a GOOD entry (R139). -/
theorem takePendingCopy_good (s : State) (ch : Chan) (st : Settings)
    (h : s.table[ch].pendingCopy = some { settings := st, parityOk := true }) :
    s.takePendingCopy ch =
      s.modEntry ch (fun _ => { damaged := false, inForce := { settings := st, parityOk := true }, pendingCopy := none }) := by
  simp only [Fin.getElem_fin] at h
  simp [State.takePendingCopy, State.applyPendingCopy, h]

/-- Where there is no pending copy nothing is applied (R139). -/
theorem takePendingCopy_none (s : State) (ch : Chan) (h : s.table[ch].pendingCopy = none) : s.takePendingCopy ch = s := by
  simp only [Fin.getElem_fin] at h
  simp [State.takePendingCopy, State.applyPendingCopy, h]

/-- A pending copy with its parity wrong is discarded and detected, and the entry is DAMAGED; where it was GOOD the channel's current
letter is stopped or closed (R18, R20, R139). -/
theorem takePendingCopy_bad (s : State) (ch : Chan) (st : Settings)
    (h : s.table[ch].pendingCopy = some { settings := st, parityOk := false }) :
    s.takePendingCopy ch =
      (let t := (s.modEntry ch (fun e => { e with damaged := true, pendingCopy := none })).detect
         { kind := .tableParity, place := .channelEntry ch true, number := none, chan := none, pos := none }
       if s.table[ch].damaged then t else t.entryStop ch) := by
  simp only [Fin.getElem_fin] at h
  simp [State.takePendingCopy, State.applyPendingCopy, h]

theorem damageEntry_frame (s : State) (ch : Chan) :
    s.damageEntry ch = { s with station := (s.damageEntry ch).station, table := (s.damageEntry ch).table,
                                profiles := (s.damageEntry ch).profiles, letters := (s.damageEntry ch).letters,
                                ctxs := (s.damageEntry ch).ctxs, freeSegs := (s.damageEntry ch).freeSegs,
                                player := (s.damageEntry ch).player, drain := (s.damageEntry ch).drain,
                                mem := (s.damageEntry ch).mem, mgmt := (s.damageEntry ch).mgmt,
                                wires := (s.damageEntry ch).wires } := by
  unfold State.damageEntry
  rw [takePendingCopy_frame, entryStop_frame]
  rfl

theorem readEntry_frame (s : State) (ch : Chan) :
    (s.readEntry ch).1 = { s with station := (s.readEntry ch).1.station, table := (s.readEntry ch).1.table,
                                  profiles := (s.readEntry ch).1.profiles, letters := (s.readEntry ch).1.letters,
                                  ctxs := (s.readEntry ch).1.ctxs, freeSegs := (s.readEntry ch).1.freeSegs,
                                  player := (s.readEntry ch).1.player, drain := (s.readEntry ch).1.drain,
                                  mem := (s.readEntry ch).1.mem, mgmt := (s.readEntry ch).1.mgmt,
                                  wires := (s.readEntry ch).1.wires } := by
  unfold State.readEntry
  split
  · rfl
  · split
    · rfl
    · exact damageEntry_frame s ch

theorem startIdle_frame (s : State) (ch : Chan) :
    s.startIdle ch = { s with station := (s.startIdle ch).station, table := (s.startIdle ch).table,
                              profiles := (s.startIdle ch).profiles, letters := (s.startIdle ch).letters,
                              ctxs := (s.startIdle ch).ctxs, freeSegs := (s.startIdle ch).freeSegs,
                              player := (s.startIdle ch).player, drain := (s.startIdle ch).drain,
                              mem := (s.startIdle ch).mem, mgmt := (s.startIdle ch).mgmt,
                              wires := (s.startIdle ch).wires } := by
  have h := readEntry_frame s ch
  unfold State.startIdle
  split
  · rename_i s1 st e
    rw [e] at h
    change s1 = _ at h
    dsimp only at h
    rw [h]
    rfl
  · rename_i s1 e
    rw [e] at h
    change s1 = _ at h
    dsimp only at h
    rw [h]
    rfl

end Sys2Proof.Machine
end

