-- ==== Sys2Proof/Laws/Links.lean ====
section
/-! SUPPORT. What a receiver finds in the bytes of a link (R153 to R156): the frames the far end sends whole, the idle bytes between them,
and what a receiver that listens does with each. -/

namespace Sys2Proof.Machine

/-! ### Fields -/

/-- A 2-byte field reads back as the number it was made of. -/
theorem natOfBytes_byte2 (n : Nat) (h : n < 65536) : natOfBytes (byte2 n) = n := by
  simp only [natOfBytes, byte2, List.foldl_cons, List.foldl_nil, BitVec.toNat_ofNat]
  omega

/-- The 2-byte field behind some bytes reads back as the number it was made of. -/
theorem fieldAt_byte2 (front behind : List Byte) (n : Nat) (h : n < 65536) :
    fieldAt (front ++ (byte2 n ++ behind)) front.length 2 = n := by
  have e : (byte2 n ++ behind).take 2 = byte2 n := by simp [byte2]
  simp only [fieldAt, List.drop_left, e]
  exact natOfBytes_byte2 n h

/-- The samples of a payload are those whose bytes it holds. -/
theorem samplesOfBytes_bytes (xs : List Sample) : samplesOfBytes (xs.flatMap sampleBytes) = xs := by
  induction xs with
  | nil => rfl
  | cons x rest ih =>
    have e : (x :: rest).flatMap sampleBytes =
        BitVec.ofNat 8 (x.toNat / 256) :: BitVec.ofNat 8 x.toNat :: rest.flatMap sampleBytes := rfl
    rw [e]
    simp only [samplesOfBytes, ih, List.cons.injEq, and_true]
    apply BitVec.eq_of_toNat_eq
    have := x.isLt
    simp only [BitVec.toNat_append, BitVec.toNat_ofNat]
    rw [Nat.shiftLeft_eq, Nat.mul_comm, ← Nat.two_pow_add_eq_or_of_lt (Nat.mod_lt _ (by decide))]
    omega

/-- The bytes of samples are two for each. -/
theorem samplesBytes_length (xs : List Sample) : (xs.flatMap sampleBytes).length = 2 * xs.length := by
  induction xs with
  | nil => rfl
  | cons x rest ih => simp only [List.flatMap_cons, List.length_append, ih, List.length_cons]; simp [sampleBytes, byte2]; omega

/-! ### The search -/

/-- Idle bytes between frames are passed over (R153). -/
theorem findFrame_idle (search stray : Bool) (n : Nat) (bs : List Byte) :
    findFrame search stray (List.replicate n idleByte ++ bs) = findFrame search stray bs := by
  induction n with
  | zero => rfl
  | succ n ih => simp only [List.replicate_succ, List.cons_append]; rw [findFrame, if_pos rfl]; exact ih

/-- A whole frame, with whatever bytes come behind it, is found and is good (R153, R154). -/
theorem findFrame_frame (search stray : Bool) (kind ch : Byte) (payload behind : List Byte) (h : payload.length ≤ 300) :
    findFrame search stray (frameBytes kind ch payload ++ behind) = .good stray (kind :: ch :: payload) behind := by
  have hj : ∀ l : List Byte, l = byte2 payload.length ++ ((kind :: ch :: payload) ++
      (byte2 (frameCheck (kind :: ch :: payload)).toNat ++ behind)) → judgeFrame l = .good (kind :: ch :: payload) behind := by
    intro l hl
    have hl' : l = BitVec.ofNat 8 (payload.length / 256) :: BitVec.ofNat 8 payload.length :: ((kind :: ch :: payload) ++
      (byte2 (frameCheck (kind :: ch :: payload)).toNat ++ behind)) := hl
    rw [hl', judgeFrame]
    have hn : natOfBytes [BitVec.ofNat 8 (payload.length / 256), BitVec.ofNat 8 payload.length] = payload.length :=
      natOfBytes_byte2 _ (by omega)
    have hlen : (kind :: ch :: payload).length = payload.length + 2 := rfl
    rw [hn, ← hlen, List.take_left, fieldAt_byte2 _ _ _ (frameCheck _).isLt]
    rw [if_neg (by omega), if_neg (by simp [byte2]), if_pos rfl]
    congr 1
    rw [show payload.length + 4 = (kind :: ch :: payload).length + 2 by simp]
    rw [List.drop_length_add_append]
    simp [byte2]
  have e : frameBytes kind ch payload ++ behind = startByte :: startSecond :: (byte2 payload.length ++ ((kind :: ch :: payload) ++
      (byte2 (frameCheck (kind :: ch :: payload)).toNat ++ behind))) := by
    simp [frameBytes, List.append_assoc]
  rw [e, findFrame, if_neg (by decide), if_neg (by simp), if_pos (by simp), List.tail_cons, hj _ rfl]

/-- The bytes that a search leaves behind what it finds: none where it waits. -/
def Found.behind : Found → List Byte
  | .waits _ _ => []
  | .good _ _ rest => rest
  | .bad _ rest => rest

/-- What stands behind a good frame is shorter than the bytes judged. -/
theorem judgeFrame_shorter (bs body behind : List Byte) (h : judgeFrame bs = .good body behind) : behind.length < bs.length := by
  unfold judgeFrame at h
  split at h
  · rename_i l1 l0 rest
    dsimp only at h
    split at h
    · cases h
    · split at h
      · cases h
      · split at h
        · cases h; simp only [List.length_drop, List.length_cons]; omega
        · cases h
  · cases h

/-- A frame that is found takes a byte at least of those that are not empty, so that a receiver finds only so many (R155). -/
theorem findFrame_shorter (search : Bool) (bs : List Byte) :
    ∀ stray, bs ≠ [] → (findFrame search stray bs).behind.length < bs.length := by
  induction bs with
  | nil => intro _ h; exact absurd rfl h
  | cons b rest ih =>
    intro stray _
    have skip : ∀ stray, (findFrame search stray rest).behind.length < (b :: rest).length := by
      intro stray
      cases rest with
      | nil => simp [findFrame, Found.behind]
      | cons c more => exact Nat.lt_succ_of_lt (ih stray (by simp))
    rw [findFrame]
    split
    · exact skip stray
    · split
      · simp [Found.behind]
      · split
        · cases hj : judgeFrame rest.tail with
          | partially => simp [Found.behind]
          | bad => simp [Found.behind]
          | good body behind =>
            have := judgeFrame_shorter _ _ _ hj
            simp only [Found.behind, List.length_cons, List.length_tail] at *
            omega
        · split
          · exact skip true
          · simp [Found.behind]

/-- With no whole frame among them, the last bytes before a loss of signal are only kept. -/
theorem listenOut_waits (s : State) (link : Link) (bytes rest : List Byte) (stray : Bool) (h : (s.rx link).find bytes = .waits stray rest) :
    s.listenOut link bytes = s.listen link bytes := by
  simp [State.listenOut, State.listenAll, h]

/-! ### A receiver in SYNC that stands between frames -/

/-- A frame that arrives whole at a receiver in SYNC that holds no byte is delivered, and no byte of it stays (R155, R156). -/
theorem hear_frame (s : State) (link : Link) (kind ch : Byte) (payload : List Byte) (us : List Upset) (hs : Listening s link)
    (h : payload.length ≤ 300) :
    s.hear link (frameBytes kind ch payload) us = (goodTaken s us link).deliver link (kind :: ch :: payload) := by
  obtain ⟨hsync, hsig, hbuf⟩ := hs
  have hrx : (s.upsets us).rx link = s.rx link := by rw [upsets_frame]; cases link <;> rfl
  have hf : ((s.upsets us).rx link).find (frameBytes kind ch payload) = .good false (kind :: ch :: payload) [] := by
    rw [hrx, Receiver.find, hbuf, List.nil_append, ← List.append_nil (frameBytes kind ch payload)]
    exact findFrame_frame _ _ _ _ _ _ h
  rw [State.hear, if_pos hsig, State.listen, hf]
  dsimp only
  have hback : ∀ (t : State) (rx : Receiver), (t.setRx link rx).rx link = rx := by intro t rx; cases link <;> rfl
  have htwice : ∀ (t : State) (a b : Receiver), (t.setRx link a).setRx link b = t.setRx link b := by
    intro t a b; cases link <;> rfl
  rw [State.goodFrame.eq_def, hback, hrx]
  simp only [Receiver.good, hsync, if_true, htwice]
  simp only [goodTaken, hbuf]
  congr 2
  cases hr : s.rx link
  simp_all

/-- A delivered AUDIO frame is classified with the sequence number and the 64 samples it was made of (R182). -/
theorem deliver_audio (s : State) (b : Byte) (seq : Word16) (xs : List Sample) (h : xs.length = 64) :
    s.deliver .station (0x01#8 :: b :: audioPayload seq xs) = s.classifyAudio b seq xs := by
  have hl : (audioPayload seq xs).length = 130 := by
    simp only [audioPayload, List.length_append, samplesBytes_length, h]; rfl
  have hseq : BitVec.ofNat 16 (fieldAt (audioPayload seq xs) 0 2) = seq := by
    have := fieldAt_byte2 [] (xs.flatMap sampleBytes) seq.toNat seq.isLt
    simp only [List.nil_append, List.length_nil] at this
    rw [audioPayload, this]
    exact BitVec.ofNat_toNat 16 seq |>.trans (by simp)
  have hxs : samplesOfBytes ((audioPayload seq xs).drop 2) = xs := by
    have e : (audioPayload seq xs).drop 2 = xs.flatMap sampleBytes := by simp [audioPayload, byte2]
    rw [e, samplesOfBytes_bytes]
  simp only [State.deliver, State.deliverStation, framePayload, frameKind, frameChannel, List.drop_succ_cons, List.drop_zero,
    List.getD_cons_zero, List.getD_cons_succ, hl, hseq, hxs]
  rfl

/-- A delivered KEY frame is admitted with the code and the count it was made of (R182). -/
theorem deliver_key (s : State) (b code : Byte) (count : Word16) :
    s.deliver .station (0x02#8 :: b :: keyPayload code count.toNat) = s.admitKey b code count := by
  have hc : BitVec.ofNat 16 (fieldAt (keyPayload code count.toNat) 1 2) = count := by
    have := fieldAt_byte2 [code] [] count.toNat count.isLt
    simp only [List.append_nil, List.singleton_append, List.length_singleton] at this
    rw [keyPayload, this]
    exact BitVec.ofNat_toNat 16 count |>.trans (by simp)
  simp only [State.deliver, State.deliverStation, framePayload, frameKind, frameChannel, List.drop_succ_cons, List.drop_zero,
    List.getD_cons_zero, List.getD_cons_succ, hc]
  rfl

/-- An AUDIO frame that arrives at a station receiver in SYNC between frames is classified (R146, R156). -/
theorem execAudio_delivered (s : State) (b : Byte) (seq : Word16) (xs : List Sample) (us : List Upset) (hs : Listening s .station)
    (h : xs.length = 64) : execAudio b seq xs us s = .next ((goodTaken s us .station).classifyAudio b seq xs) := by
  have hl : (audioPayload seq xs).length ≤ 300 := by
    simp only [audioPayload, List.length_append, samplesBytes_length, h]; simp [byte2]
  rw [execAudio, hear_frame s .station _ _ _ us hs hl, deliver_audio _ _ _ _ h]

/-- A KEY frame that arrives at a station receiver in SYNC between frames passes to the admission check (R156, R159). -/
theorem execKey_delivered (s : State) (b code : Byte) (count : Word16) (us : List Upset) (hs : Listening s .station) :
    execKey b code count us s = .next ((goodTaken s us .station).admitKey b code count) := by
  rw [execKey, hear_frame s .station _ _ _ us hs (by simp [keyPayload, byte2]), deliver_key]

end Sys2Proof.Machine
end

