-- ==== Sys2Proof/Laws/Memory.lean ====
section
/-! SUPPORT. The laws of block memory's contents and of lists held as runs. -/

namespace Sys2Proof.Machine

/-! ### Contents -/

/-- A read after a write: the written value at the location written, the old one elsewhere. -/
theorem Memory.read_write (m : Memory) (n k : Nat) (x : Stored) (lo : Nat) (h : Memory.wfFrom lo m = true) :
    Memory.read (Memory.write m n x) k = if k = n then x else Memory.read m k := by
  induction m generalizing lo with
  | nil =>
    by_cases hx : x = zeroStored <;> by_cases hk : k = n <;> simp [Memory.write, Memory.read, hx, hk]
    exact fun e => hk e.symm
  | cons e rest ih =>
    obtain ⟨a, y⟩ := e
    simp only [Memory.wfFrom, Bool.and_eq_true, decide_eq_true_eq] at h
    have hlow : ∀ (m : Memory) (lo k : Nat), Memory.wfFrom lo m = true → k < lo → Memory.read m k = zeroStored := by
      intro m
      induction m with
      | nil => intros; rfl
      | cons e rest ih =>
        intro lo k h hk
        simp only [Memory.wfFrom, Bool.and_eq_true, decide_eq_true_eq] at h
        simp only [Memory.read]
        rw [if_neg (by omega)]
        exact ih (e.1 + 1) k h.2 (by omega)
    simp only [Memory.write]
    split
    · rename_i hn
      split
      · rename_i hx
        by_cases hk : k = n
        · subst hk
          rw [if_pos rfl, hx]
          exact hlow ((a, y) :: rest) a k (by simp [Memory.wfFrom, h.1.1.2, h.1.2, h.2]) hn
        · rw [if_neg hk]
      · by_cases hk : k = n
        · subst hk; simp [Memory.read]
        · rw [if_neg hk]
          simp only [Memory.read]
          rw [if_neg (fun e => hk e.symm)]
    · split
      · rename_i hn
        subst hn
        split
        · rename_i hx
          by_cases hk : k = n
          · subst hk
            rw [if_pos rfl, hx]
            exact hlow rest (k + 1) k h.2 (by omega)
          · rw [if_neg hk]
            simp only [Memory.read]
            rw [if_neg (fun e => hk e.symm)]
        · by_cases hk : k = n
          · subst hk; simp [Memory.read]
          · rw [if_neg hk]
            simp only [Memory.read]
            rw [if_neg (fun e => hk e.symm), if_neg (fun e => hk e.symm)]
      · rename_i hn
        simp only [Memory.read]
        by_cases hak : a = k
        · subst hak
          simp [hn, eq_comm]
        · rw [if_neg hak, if_neg hak]
          exact ih (a + 1) h.2

/-- The canonical form above a bound holds above every lower one. -/
theorem Memory.wfFrom_mono {m : Memory} {lo lo' : Nat} (h : Memory.wfFrom lo m = true) (hl : lo' ≤ lo) :
    Memory.wfFrom lo' m = true := by
  cases m with
  | nil => rfl
  | cons e rest =>
    simp only [Memory.wfFrom, Bool.and_eq_true, decide_eq_true_eq] at h ⊢
    exact ⟨⟨⟨by omega, h.1.1.2⟩, h.1.2⟩, h.2⟩

/-- A write at or above a bound of contents whose errors are in order keeps the canonical form above it. -/
theorem Memory.write_wfFrom (m : Memory) (n : Nat) (x : Stored) (lo : Nat) (h : Memory.wfFrom lo m = true) (hn : lo ≤ n)
    (he : errorsRise x.errs = true) :
    Memory.wfFrom lo (Memory.write m n x) = true := by
  induction m generalizing lo with
  | nil => by_cases hx : x = zeroStored <;> simp [Memory.write, Memory.wfFrom, hx, hn, he]
  | cons e rest ih =>
    obtain ⟨a, y⟩ := e
    simp only [Memory.wfFrom, Bool.and_eq_true, decide_eq_true_eq] at h
    simp only [Memory.write]
    split
    · rename_i hna
      split
      · simp [Memory.wfFrom, h.1.1.1, h.1.1.2, h.1.2, h.2]
      · rename_i hx
        simp only [Memory.wfFrom, Bool.and_eq_true, decide_eq_true_eq]
        exact ⟨⟨⟨hn, hx⟩, he⟩, ⟨⟨by omega, h.1.1.2⟩, h.1.2⟩, h.2⟩
    · split
      · split
        · exact Memory.wfFrom_mono h.2 (by omega)
        · rename_i hx
          simp only [Memory.wfFrom, Bool.and_eq_true, decide_eq_true_eq]
          rename_i hna
          subst hna
          exact ⟨⟨⟨hn, hx⟩, he⟩, h.2⟩
      · simp only [Memory.wfFrom, Bool.and_eq_true, decide_eq_true_eq]
        exact ⟨h.1, ih (a + 1) h.2 (by omega)⟩

/-- A write of contents whose errors are in order keeps the canonical form. -/
theorem Memory.write_wf (m : Memory) (n : Nat) (x : Stored) (h : Memory.wf m = true) (he : errorsRise x.errs = true) :
    Memory.wf (Memory.write m n x) = true :=
  Memory.write_wfFrom m n x 0 h (Nat.zero_le n) he

/-- A location of canonical contents holds its errors in order. -/
theorem Memory.read_errorsRise (m : Memory) (n lo : Nat) (h : Memory.wfFrom lo m = true) : errorsRise (Memory.read m n).errs = true := by
  induction m generalizing lo with
  | nil => rfl
  | cons e rest ih =>
    simp only [Memory.wfFrom, Bool.and_eq_true, decide_eq_true_eq] at h
    simp only [Memory.read]
    split
    · exact h.1.2
    · exact ih _ h.2

/-- An error that joins leaves those in order, and is one of them with all that were there. -/
theorem addError_rises (e : BitError) (es : List BitError) (h : errorsRise es = true) :
    errorsRise (addError e es) = true ∧ ∀ x, x ∈ addError e es ↔ x = e ∨ x ∈ es := by
  have hne : ∀ a b : BitError, a ≠ b → BitError.before a b = false → BitError.before b a = true := by
    intro a b hab hf
    obtain ⟨g, i⟩ := a
    obtain ⟨k, j⟩ := b
    simp only [BitError.before, Bool.or_eq_false_iff, Bool.and_eq_false_iff, decide_eq_false_iff_not, Bool.or_eq_true,
      Bool.and_eq_true, decide_eq_true_eq, Fin.ext_iff] at hf ⊢
    by_cases hg : g = k
    · subst hg
      have : i ≠ j := fun h => hab (by rw [h])
      omega
    · have : g.val ≠ k.val := fun h => hg (Fin.ext h)
      omega
  induction es with
  | nil => simp [addError, errorsRise]
  | cons a rest ih =>
    have hrest : errorsRise rest = true := by
      cases rest with
      | nil => rfl
      | cons b rest' => simp only [errorsRise, Bool.and_eq_true] at h; exact h.2
    obtain ⟨ih1, ih2⟩ := ih hrest
    simp only [addError]
    split
    · rename_i ha; subst ha; exact ⟨h, fun x => by simp⟩
    · rename_i ha
      split
      · rename_i hb; exact ⟨by simp [errorsRise, hb, h], fun x => by simp⟩
      · rename_i hb
        refine ⟨?_, fun x => by simp only [List.mem_cons, ih2]; tauto⟩
        have hea := hne e a (fun h => ha h.symm) (by simpa using hb)
        cases rest with
        | nil => simp [addError, errorsRise, hea]
        | cons b rest' =>
          simp only [errorsRise, Bool.and_eq_true] at h
          simp only [addError] at ih1 ⊢
          split at ih1
          · rename_i hx
            rw [if_pos hx]
            exact Bool.and_eq_true_iff.mpr h
          · rename_i hx
            rw [if_neg hx]
            split at ih1
            · rename_i hy
              rw [if_pos hy]
              exact Bool.and_eq_true_iff.mpr ⟨hea, ih1⟩
            · rename_i hy
              rw [if_neg hy]
              exact Bool.and_eq_true_iff.mpr ⟨h.1, ih1⟩

/-- Contents with the errors that have arisen: the block stays, the errors are in order, and each is one that was there or one that arose
(R127). -/
theorem withErrors_spec (x : Stored) (found : List BitError) (h : errorsRise x.errs = true) :
    (x.withErrors found).block = x.block ∧ errorsRise (x.withErrors found).errs = true ∧
    ∀ e, e ∈ (x.withErrors found).errs ↔ e ∈ found ∨ e ∈ x.errs := by
  refine ⟨rfl, ?_⟩
  simp only [Stored.withErrors]
  generalize x.errs = es at h ⊢
  induction found generalizing es with
  | nil => exact ⟨h, fun e => by simp⟩
  | cons f rest ih =>
    obtain ⟨h1, h2⟩ := addError_rises f es h
    obtain ⟨h3, h4⟩ := ih _ h1
    exact ⟨h3, fun e => by simp only [List.foldl_cons, h4, h2, List.mem_cons]; tauto⟩

/-- Contents with no bit in error are read Good (R127). -/
theorem result_of_no_errors (x : Stored) (h : x.errs = []) : x.result = .good := by
  obtain ⟨b, es⟩ := x
  subst h
  simp only [Stored.result, groupErrors, List.filter_nil, List.map_nil, groupResult]
  decide

/-- Power-on contents are canonical. -/
theorem reset_cells_wf : Memory.wf State.reset.mem.cells = true := rfl

/-! ### Lists held as runs -/

@[simp] theorem runsList_nil : runsList [] = [] := rfl

@[simp] theorem runsList_cons (a k : Nat) (rest : List (Nat × Nat)) :
    runsList ((a, k) :: rest) = List.range' a k ++ runsList rest := by simp [runsList]

/-- A location that joins stands at the tail. -/
theorem runsPush_list (rs : List (Nat × Nat)) (n : Nat) : runsList (runsPush rs n) = runsList rs ++ [n] := by
  induction rs with
  | nil => simp [runsPush]
  | cons r rest ih =>
    obtain ⟨a, k⟩ := r
    cases rest with
    | nil =>
      simp only [runsPush]
      split
      · rename_i h; subst h; simp [List.range'_concat]
      · simp
    | cons r' rest' => simp only [runsPush, runsList_cons, ih, List.append_assoc]

/-- The head leaves, and the rest stay in order, where every run holds a location. -/
theorem runsPop_list (rs rest : List (Nat × Nat)) (n : Nat) (hp : ∀ r ∈ rs, 0 < r.2) (h : runsPop rs = some (n, rest)) :
    runsList rs = n :: runsList rest := by
  cases rs with
  | nil => simp [runsPop] at h
  | cons r rs =>
    obtain ⟨a, k⟩ := r
    have hk : 0 < k := hp (a, k) (by simp)
    simp only [runsPop] at h
    split at h
    · rename_i h1
      have : k = 1 := by omega
      subst this
      simp only [Option.some.injEq, Prod.mk.injEq] at h
      obtain ⟨rfl, rfl⟩ := h
      simp
    · simp only [Option.some.injEq, Prod.mk.injEq] at h
      obtain ⟨rfl, rfl⟩ := h
      obtain ⟨k', rfl⟩ : ∃ k', k = k' + 1 := ⟨k - 1, by omega⟩
      simp [List.range'_succ]

/-- A location stands on a list held as runs where it is one of its locations. -/
theorem runsMem_iff (n : Nat) (rs : List (Nat × Nat)) : runsMem n rs = true ↔ n ∈ runsList rs := by
  induction rs with
  | nil => simp [runsMem]
  | cons r rest ih =>
    obtain ⟨a, k⟩ := r
    simp only [runsMem, List.any_cons, Bool.or_eq_true, Bool.and_eq_true, decide_eq_true_eq, runsList_cons, List.mem_append,
      List.mem_range'_1] at ih ⊢
    rw [← ih]

/-- The number of locations of a list held as runs. -/
theorem runsCount_length (rs : List (Nat × Nat)) : runsCount rs = (runsList rs).length := by
  induction rs with
  | nil => rfl
  | cons r rest ih => obtain ⟨a, k⟩ := r; simp only [runsCount, List.map_cons, List.sum_cons] at ih ⊢; simp [ih]

end Sys2Proof.Machine
end

