-- ==== Sys2Proof/Laws/Terms.lean ====
section
/-! SUPPORT. Each shared operation that closes a letter, stops one for its entry, deals with a wrong parity, starts an idle timer or chooses the
next delivery, as the term of Safety.lean that says whole what the device is after it. -/

namespace Sys2Proof.Machine

/-- A table set twice at one index holds the second value. -/
theorem upd_upd {α : Type} {n : Nat} (v : Vector α n) (i : Fin n) (f g : α → α) : upd (upd v i f) i g = upd v i (fun x => g (f x)) := by
  simp [upd]

/-- A list of duration 0 names no location (R30, R32). -/
theorem listLocs_of_listDur_zero (list : List Segment) (h : listDur list = 0) : listLocs list = [] := by
  induction list with
  | nil => rfl
  | cons g rest ih =>
    simp only [listDur, Nat.add_eq_zero_iff] at h
    cases g with
    | speech hs =>
      have : hs = [] := by simpa [Segment.dur] using h.1
      simp [listLocs, this, ih h.2]
    | silence d => simpa [listLocs] using ih h.2
    | gap c => simp [Segment.dur] at h

/-- The delivery of a letter of the queue begins (R103). -/
theorem startDelivery_eq (s : State) (i : LetterIx) : s.startDelivery i = deliveryBegun s i := by
  unfold State.startDelivery deliveryBegun
  cases hl : s.letters[i] with
  | none => rfl
  | some l =>
    simp only [Fin.getElem_fin] at hl
    cases hp : l.phase <;> simp [hp, State.setPhase, State.modLetter, State.modDrain, upd, hl, deliveryStart]

/-- The next delivery is chosen (R108, R110). -/
theorem chooseNext_eq (s : State) : s.chooseNext = nextDelivery s := by
  unfold State.chooseNext nextDelivery
  cases hu : s.classOf .urgent with
  | cons i rest =>
    cases hx : s.drain.suspended with
    | none => simp [State.startNext, State.nextHead, hu, startDelivery_eq]
    | some x => simp [startDelivery_eq]
  | nil =>
    cases hx : s.drain.suspended with
    | some x =>
      dsimp only
      unfold State.resume deliveryResumed
      cases hl : s.letters[x.letter] with
      | none => rfl
      | some l =>
        simp only [Fin.getElem_fin] at hl
        cases hp : l.phase <;> simp [hp, State.setPhase, State.modLetter, State.modDrain, upd, hl]
    | none =>
      cases hr : s.classOf .routine with
      | nil => simp [State.startNext, State.nextHead, hu, hr]
      | cons i rest => simp [State.startNext, State.nextHead, hu, hr, startDelivery_eq]

/-- A drain start, if one can be taken (R103). -/
theorem takeDrainStart_eq (s : State) : s.takeDrainStart = drainStarted s := by
  have hn : s.drain.suspended = none → s.startNext = nextDelivery s := by
    intro hx
    rw [← chooseNext_eq, State.chooseNext, hx]
  unfold State.takeDrainStart drainStarted
  by_cases hm : s.drainMayAct = true
  · cases hd : s.drain.delivery with
    | some d => simp
    | none =>
      cases hx : s.drain.suspended with
      | some x => simp
      | none => simp [hm, hn hx]
  · simp [hm]

/-- The switch, if it can be taken (R109). -/
theorem takeSuspension_eq (s : State) (d : Delivery) (hd : s.drain.delivery = some d) : s.takeSuspension = switched s d := by
  unfold State.takeSuspension switched
  rw [hd]
  dsimp only
  cases hl : s.letters[d.letter] with
  | none => rfl
  | some m =>
    simp only [Fin.getElem_fin] at hl
    cases hu : s.classOf .urgent with
    | nil => cases hp : m.phase <;> simp [hp]
    | cons i rest =>
      cases hp : m.phase with
      | draining ticket =>
        simp only [Option.map_some, hp, startDelivery_eq]
        have hb : (s.boundary = true ∧ s.suspensionDue d = true ∧ d.abort = false ∧ s.drain.suspended = none) ↔
            (s.drainMayAct = true ∧ s.drain.forming = none ∧ m.cls = .routine ∧ d.abort = false ∧ s.drain.suspended = none) := by
          simp [State.boundary, State.suspensionDue, hl, hu, and_assoc]
        by_cases hc : s.drainMayAct = true ∧ s.drain.forming = none ∧ m.cls = .routine ∧ d.abort = false ∧ s.drain.suspended = none
        · rw [if_pos hc, if_pos (hb.mpr hc)]
          unfold State.giveWay
          by_cases hh : d.next = .head
          · simp [hh, State.setPhase, State.modLetter, State.setDelivery, State.modDrain, upd, hl]
          · simp [hh, State.setPhase, State.modLetter, State.modDrain, upd, hl]
        · rw [if_neg hc, if_neg (fun h => hc (hb.mp h))]
      | _ => simp [hp]

/-- The Drain Engine acts on a letter that has just joined a class (R103, R109, R111). -/
theorem queueGrew_eq (s : State) : s.queueGrew = queueGrown s := by
  unfold State.queueGrew queueGrown
  cases hd : s.drain.delivery with
  | none => exact takeDrainStart_eq s
  | some d => simp only [takeSuspension_eq s d hd]

/-- Handing locations back looks at no part of the Drain Engine (R125). -/
theorem handBackAll_modDrain (f : Drain → Drain) (ns : List Nat) (s : State) :
    (s.modDrain f).handBackAll ns = (s.handBackAll ns).modDrain f := by
  induction ns generalizing s with
  | nil => rfl
  | cons n rest ih =>
    have e : ∀ s : State, s.handBackAll (n :: rest) = (s.handBack n).handBackAll rest := fun _ => rfl
    have h : (s.modDrain f).handBack n = (s.handBack n).modDrain f := by
      have hs : (s.modDrain f).mem = s.mem := rfl
      unfold State.handBack State.placeLoc
      rw [hs]
      split
      · split
        · dsimp only; split <;> rfl
        · rfl
      · rfl
    rw [e, e, h, ih]

/-- A letter leaves the issue list and is freed (R26, R98). -/
theorem leaveAndFree_eq (s : State) (i : LetterIx) : (s.leaveIssue i).freeLetter i = letterFreed s i := by
  unfold State.freeLetter letterFreed
  have hl : (s.leaveIssue i).letters[i] = s.letters[i] := rfl
  rw [hl]
  cases s.letters[i] with
  | none => rfl
  | some l =>
    dsimp only
    rw [State.leaveIssue, handBackAll_modDrain, handBackAll_frame]
    rfl

/-- A pending abort, if it can be acted on (R115). -/
theorem takeAbort_eq (s : State) (d : Delivery) (hd : s.drain.delivery = some d) (ha : d.abort = true) : s.takeAbort = abortTaken s d := by
  unfold State.takeAbort abortTaken
  rw [hd]
  dsimp only
  have hb : (s.boundary = true ∧ d.abort = true ∧ d.next ≠ .abandon) ↔
      (s.drainMayAct = true ∧ s.drain.forming = none ∧ d.next ≠ .abandon) := by
    simp [State.boundary, ha, and_assoc]
  by_cases hc : s.drainMayAct = true ∧ s.drain.forming = none ∧ d.next ≠ .abandon
  · rw [if_pos hc, if_pos (hb.mpr hc)]
    split
    · rw [State.endDelivery, chooseNext_eq, leaveAndFree_eq]; rfl
    · rfl
  · rw [if_neg hc, if_neg (fun h => hc (hb.mp h))]

/-- The Drain Engine acts at once, where it may (R102, R103, R109, R112, R113, R115). -/
theorem drainActs_eq (s : State) : s.drainActs = drainActed s := by
  unfold State.drainActs drainActed
  cases hd : s.drain.delivery with
  | none => exact takeDrainStart_eq s
  | some d =>
    cases ha : d.abort with
    | true => simp [takeAbort_eq s d hd ha, ha]
    | false => simp [takeSuspension_eq s d hd, ha]

/-- The beginning of a delivery looks at no entry and at no wire. -/
theorem deliveryBegun_table (s : State) (i : LetterIx) (table : Vector ChannelEntry 48) (w : Wires) :
    deliveryBegun { s with table := table, wires := w } i = { deliveryBegun s i with table := table, wires := w } := by
  unfold deliveryBegun
  dsimp only
  cases s.letters[i] with
  | none => rfl
  | some l => obtain ⟨_, _, _, _, _, _, _, _, _, _, _, p⟩ := l; cases p <;> rfl

/-- The choice of the next delivery looks at no entry and at no wire. -/
theorem nextDelivery_table (s : State) (table : Vector ChannelEntry 48) (w : Wires) :
    nextDelivery { s with table := table, wires := w } = { nextDelivery s with table := table, wires := w } := by
  have hc : ∀ c, State.classOf { s with table := table, wires := w } c = s.classOf c := fun _ => rfl
  unfold nextDelivery
  rw [hc, hc]
  dsimp only
  cases s.classOf .urgent with
  | cons i rest => exact deliveryBegun_table s i table w
  | nil =>
    cases s.drain.suspended with
    | some x =>
      dsimp only
      unfold deliveryResumed
      dsimp only
      cases s.letters[x.letter] with
      | none => rfl
      | some l => obtain ⟨_, _, _, _, _, _, _, _, _, _, _, p⟩ := l; cases p <;> rfl
    | none =>
      cases s.classOf .routine with
      | cons i rest => exact deliveryBegun_table s i table w
      | nil => rfl

/-- What the Drain Engine does on an arrival looks at no entry and at no wire. -/
theorem queueGrown_table (s : State) (table : Vector ChannelEntry 48) (w : Wires) :
    queueGrown { s with table := table, wires := w } = { queueGrown s with table := table, wires := w } := by
  have hc : ∀ c, State.classOf { s with table := table, wires := w } c = s.classOf c := fun _ => rfl
  have hm : State.drainMayAct { s with table := table, wires := w } = s.drainMayAct := rfl
  unfold queueGrown
  dsimp only
  cases s.drain.delivery with
  | none =>
    dsimp only
    unfold drainStarted
    rw [hm]
    dsimp only
    split
    · exact nextDelivery_table s table w
    · rfl
  | some d =>
    dsimp only
    split
    · rfl
    · unfold switched
      rw [hc, hm]
      dsimp only
      cases s.letters[d.letter] with
      | none => rfl
      | some l =>
        cases s.classOf .urgent with
        | nil => rfl
        | cons i rest =>
          obtain ⟨_, _, _, _, _, _, _, _, _, _, _, p⟩ := l
          cases p with
          | draining ticket =>
            dsimp only
            split
            · split <;> exact deliveryBegun_table { s with letters := _, drain := _ } i table w
            · rfl
          | _ => rfl

/-- What the Drain Engine does on an arrival changes no wire. -/
theorem queueGrown_wires (s : State) : (queueGrown s).wires = s.wires := by rw [← queueGrew_eq, queueGrew_frame]

/-- The close of a current letter that is not in a take (R25). -/
theorem closeCurrent_eq (s : State) (ch : Chan) (i : LetterIx) (l : Letter) (h : Current s ch i l) (ht : l.phase.take? = none) :
    s.closeCurrent ch = letterClosed s ch i l := by
  obtain ⟨hc, hl⟩ := h
  simp only [Fin.getElem_fin] at hc hl
  have hcur : s.currentLetter ch = some (i, l) := by simp [State.currentLetter, hc, hl]
  unfold State.closeCurrent letterClosed
  rw [hcur]
  by_cases hz : l.length = 0
  · have hloc : listLocs l.list = [] := listLocs_of_listDur_zero _ hz
    simp [hz, State.freeLetter, State.dropCurrent, State.modCtx, hl, hloc, State.handBackAll, State.modSlot, State.setLetter,
      Letter.records, ht, State.tellNoLive, State.modWires, upd]
  · simp [hz, State.enqueue, State.dropCurrent, State.modCtx, State.setPhase, State.modLetter, hl, State.modDrain, State.tellNoLive,
      State.modWires, upd, State.ticketsHeld, queueGrew_eq]

/-- A force-stop cause taken by a take (R19). -/
theorem stopped_eq (t : Take) (c : StopCause) : t.stopped c = takeStopped t c := by
  cases c <;> simp [Take.stopped, takeStopped, StopCause.closes]

/-- A current letter is stopped for its entry (R18 to R20). -/
theorem entryStop_eq (s : State) (ch : Chan) : s.entryStop ch = entryStopped s ch := by
  unfold State.entryStop entryStopped
  cases hcur : s.currentLetter ch with
  | none => rfl
  | some il =>
    obtain ⟨i, l⟩ := il
    have h : Current s ch i l := by
      unfold State.currentLetter at hcur
      split at hcur
      · cases hcur
      · rename_i j e
        simp only [Option.map_eq_some_iff, Prod.mk.injEq] at hcur
        obtain ⟨m, hm, rfl, rfl⟩ := hcur
        exact ⟨e, hm⟩
    have hl : s.letters[i] = some l := h.2
    simp only [Fin.getElem_fin] at hl
    dsimp only
    split
    · rename_i t e
      simp only [State.forceStopTake, hcur, e, Phase.take?, StopCause.discards, stopped_eq]
      by_cases hcause : StopCause.entry ∈ t.causes
      · simp [hcause, State.setPhase, State.modLetter, State.askCapture, State.modWires, upd, hl]
      · simp [hcause, State.setPhase, State.modLetter, State.askCapture, State.modWires, upd, hl, State.tell, State.pushReply,
          State.modStation, replied, limitReply, StopCause.limitResult, codeLimit, Letter.view]
    · rename_i t e
      simp only [State.forceStopTake, hcur, e, Phase.take?, StopCause.discards, stopped_eq]
      by_cases hcause : StopCause.entry ∈ t.causes
      · simp [hcause, State.setPhase, State.modLetter, upd, hl]
      · simp [hcause, State.setPhase, State.modLetter, upd, hl, State.tell, State.pushReply, State.modStation, replied, limitReply,
          StopCause.limitResult, codeLimit, Letter.view]
    · rename_i e
      have hc : Current (s.tell ch codeLimit .blocked (some .entry) l.view) ch i l := h
      try rw [e]
      exact closeCurrent_eq _ ch i l hc (by rw [e]; rfl)
    · rename_i e
      have hc : Current ((s.stopReview ch).tell ch codeLimit .blocked (some .entry) l.view) ch i l := h
      try rw [e]
      exact closeCurrent_eq _ ch i l hc (by rw [e]; rfl)
    · first
      | rfl
      | (split <;> first | rfl | simp_all)

/-- The stop of a current letter for its entry looks at no entry and at no detection. -/
theorem entryStopped_table (s : State) (ch : Chan) (table : Vector ChannelEntry 48) (ds : List FaultContext) :
    entryStopped { s with table := table, wires := { s.wires with detections := ds } } ch =
      { entryStopped s ch with table := table, wires := { (entryStopped s ch).wires with detections := ds } } := by
  have hcur : State.currentLetter { s with table := table, wires := { s.wires with detections := ds } } ch = s.currentLetter ch := rfl
  unfold entryStopped
  rw [hcur]
  cases s.currentLetter ch with
  | none => rfl
  | some il =>
    obtain ⟨i, l⟩ := il
    dsimp only
    split
    · rfl
    · rfl
    · unfold letterClosed; dsimp only; split; rfl; rw [queueGrown_wires, ← queueGrown_table]; rfl
    · unfold letterClosed; dsimp only; split; rfl; rw [queueGrown_wires, ← queueGrown_table]; rfl
    · rfl

/-- A wrong parity of an in-force copy is dealt with (R143). -/
theorem damageEntry_eq (s : State) (ch : Chan) : s.damageEntry ch = entryDamaged s ch := by
  have hx : ((s.modEntry ch (fun e => { e with damaged := true })).detect
      { kind := .tableParity, place := .channelEntry ch false, number := (s.currentLetter ch).map (fun il => il.2.number), chan := some ch,
        pos := none }).entryStop ch =
      { entryStopped s ch with
        table := s.table.set ch { s.table[ch] with damaged := true }
        wires := { (entryStopped s ch).wires with detections := s.wires.detections ++
          [{ kind := .tableParity, place := .channelEntry ch false, number := (s.currentLetter ch).map (fun il => il.2.number),
             chan := some ch, pos := none }] } } := by
    rw [entryStop_eq]
    exact entryStopped_table s ch _ _
  unfold State.damageEntry entryDamaged
  dsimp only
  rw [hx]
  cases hp : s.table[ch].pendingCopy with
  | none =>
    simp only [Fin.getElem_fin] at hp
    rw [takePendingCopy_none]
    · simp [copyApplied, copyWrong, hp]
    · simpa using hp
  | some c =>
    simp only [Fin.getElem_fin] at hp
    obtain ⟨st, ok⟩ := c
    cases ok with
    | true =>
      rw [takePendingCopy_good (st := st)]
      · simp [copyApplied, copyWrong, hp, State.modEntry, upd]
      · simpa using hp
    | false =>
      rw [takePendingCopy_bad (st := st)]
      · simp [copyApplied, copyWrong, hp, State.modEntry, upd, State.detect, State.modWires, pendingDetection]
      · simpa using hp

/-- The idle timer of a channel is started by a read of its entry (R7, R143, R145). -/
theorem startIdle_eq (s : State) (ch : Chan) : s.startIdle ch = idleStarted s ch := by
  unfold idleStarted
  dsimp only
  by_cases hd : s.table[ch].damaged = true
  · rw [startIdle_damaged s ch hd, if_pos hd]; rfl
  · rw [if_neg hd]
    by_cases hp : s.table[ch].inForce.parityOk = true
    · rw [if_pos hp]
      have hc : s.table[ch].inForce = { settings := s.table[ch].inForce.settings, parityOk := true } := by
        rw [← hp]
      rw [startIdle_good s ch _ (by simpa using hd) hc]
      rfl
    · rw [if_neg hp, State.startIdle, readEntry_bad s ch (by simpa using hd) (by simpa using hp), damageEntry_eq]
      rfl

/-- A read of a slot that is not DAMAGED and whose parity is wrong (R55). -/
theorem readSlot_bad (s : State) (k : Slot) (number : Nat) (ch : Chan) (pos : Option Nat)
    (hs : s.profiles[k].status ≠ .damaged) (hp : s.profiles[k].parityOk = false) :
    s.readSlot k (some number) ch pos = (slotDamaged s k number ch pos, none) := by
  simp only [Fin.getElem_fin] at hs hp
  simp [State.readSlot, hs, hp, slotDamaged, State.modSlot, State.detect, State.modWires, upd]

end Sys2Proof.Machine
end

