-- ==== Sys2Proof/Tests/Slice0.lean ====
section
/-! SUPPORT. Tests: the spec's worked examples, the checks of WellFormed, and for each statement a concrete state and operands that meet
its hypotheses. -/

set_option maxRecDepth 20000
set_option Elab.async false

open Sys2Proof Sys2Proof.Machine

namespace Sys2Proof.Tests

/-! ### Small states -/

/-- Settings of a channel that compresses. -/
def st0 : Settings := { mode := .compress, author := 77, slot := 2, cls := .routine, maxDur := 65535, minutes := 10 }

/-- A valid profile. -/
def prof : Profile :=
  { w := 4, kInit := 16, step := (List.range 64).map (fun i => min 16384 (8 + 4 * i * i)), adj := [-1, -1, 0, 1, 2, 3, 5, 8],
    tEnter := 300, tLeave := 500, hang := 2, cap := 20 }

/-- A device in service: both receivers in SYNC, every entry and every profile slot set, block memory READY with all locations free. -/
def base : State :=
  { State.reset with
    station := { State.reset.station with rx := { Receiver.reset with sync := true } }
    pool := { State.reset.pool with rx := { Receiver.reset with sync := true } }
    table := Vector.replicate 48 { damaged := false, inForce := { settings := st0, parityOk := true }, pendingCopy := none }
    profiles := Vector.replicate 16 { status := .ready, contents := prof, generation := 3, refs := 0, parityOk := true }
    mem := { State.reset.mem with ctrl := .ready, waiting := [], free := [(0, 262144)] } }

/-- A letter of length 10 in four segments. -/
def letter0 : Letter :=
  { number := 612, chan := 7, author := 5, cls := .routine, slot := 2, generation := 3, w := 4, cap := 20, maxDur := 1000, cursor := 3,
    list := [.speech [.loc 10, .loc 11, .placeholder], .silence 5, .gap .overrun, .speech [.loc 12]], phase := .opened }

/-- A take of two blocks. -/
def take0 : Take :=
  { mode := .overwrite, start := 3, list := [.silence 2], serial := 255, stopOwed := false, closeAtCommit := false, causes := [] }

/-- `base` with a current letter on channel 7. -/
def holding (l : Letter) : State :=
  { base with
    letters := base.letters.set 4 (some l)
    ctxs := base.ctxs.set 7 { base.ctxs[7] with current := some 4, armed := true, idle := some 5 }
    freeSegs := 16384 - l.records
    profiles := base.profiles.set 2 { base.profiles[2] with refs := 1 }
    mem := { base.mem with free := [(13, 262131)], held := [10, 11, 12].map (fun n => { loc := n, releasing := false, writing := false }) } }

/-- The current letter of channel 7 in a state of its life. -/
def inPhase (p : Phase) : State := holding { letter0 with phase := p }

/-- A key waits on channel 7. -/
def keyed (s : State) (code : Byte) (count : Nat := 0) : State :=
  { s with
    wires := { s.wires with keys := s.wires.keys.set 7 [{ code := code, count := count }] }
    station := { s.station with inFlight := s.station.inFlight.set 7 1 } }

/-- A request is at the head of the queue. -/
def asked (s : State) (kind : Byte) (fields : List Byte) : State :=
  { s with mgmt := { s.mgmt with queue := [{ kind := kind, tag := 0x1234#16, fields := fields }] } }

/-- The request that `asked` places. -/
def req (kind : Byte) (fields : List Byte) : Request := { kind := kind, tag := 0x1234#16, fields := fields }

/-- Another state of the controller. -/
def ctrl (c : CtrlState) (s : State) : State := { s with mem := { s.mem with ctrl := c } }

/-- Channel 7's entry in another mode. -/
def mode (m : Mode) (s : State) : State :=
  { s with table := s.table.set 7 { s.table[7] with inForce := { settings := { st0 with mode := m }, parityOk := true } } }

/-- The parity of channel 7's in-force copy is wrong, with a pending copy or none. -/
def wrong (s : State) (p : Option Copy := none) : State :=
  { s with table := s.table.set 7 { damaged := false, inForce := { settings := st0, parityOk := false }, pendingCopy := p } }

/-- Channel 7's entry DAMAGED. -/
def spoilt (s : State) : State := { s with table := s.table.set 7 { s.table[7] with damaged := true } }

/-- Slot 2 in another status. -/
def slot2 (x : SlotStatus) (s : State) : State := { s with profiles := s.profiles.set 2 { s.profiles[2] with status := x } }

/-- A receiver in another state. -/
def heard (link : Link) (sync : Bool) (bad good : Nat) (s : State) (buf : List Byte := []) (seeking : Bool := false) : State :=
  s.setRx link { sync := sync, badRun := bad, goodRun := good, signal := true, seeking := seeking, buf := buf }

/-- A frame's worth of quiet samples. -/
def quiet : List Sample := List.replicate 64 10

/-- A block's worth of a loud sample. -/
def loudBlock : List Sample := List.replicate 256 1000

/-- The first bytes of a frame whose length field is 412. -/
def tooLong : List Byte := [0xD5, 0x3C, 0x01, 0x9C]

/-- A bit in error. -/
def bit (g : Fin 17) (n : Nat) : BitError := { group := g, bit := n }

/-- What a command leaves. -/
def after (c : Instr) (s : State) : State :=
  match exec c s with
  | .next t => t
  | _ => s

/-- What a step leaves. -/
def stepped (s : State) : State :=
  match step s with
  | .next t => t
  | _ => s

/-! ### The spec's worked examples -/

/-- R154: the nine bytes 31h to 39h leave 29B1h in the register. -/
theorem test_frame_check : frameCheck [0x31, 0x32, 0x33, 0x34, 0x35, 0x36, 0x37, 0x38, 0x39] = 0x29B1#16 := by decide +kernel

/-- 3.7, energy of a block with one extreme sample: E is 167 and CLIP is set. -/
theorem test_energy_of_an_extreme_sample :
    let xs : List Sample := List.replicate 128 40 ++ List.replicate 127 (-40) ++ [0x8000#16]
    energy xs = 167 ∧ clipped xs = true ∧ energy (List.replicate 256 0x8000#16) = 32767 := by decide +kernel

/-- 3.7, the detector through a word's end. -/
theorem test_detector :
    decisions prof .talk [800, 250, 260, 280, 400, 450, 520, 100] = [true, true, true, false, false, false, true, true] := by
  decide +kernel

/-- The profile of 3.7's three samples at W = 4. -/
def profW4 : Profile :=
  { prof with step := List.replicate 19 200 ++ [232, 256] ++ List.replicate 6 300 ++ List.replicate 13 441 ++
                      List.replicate 23 2000 ++ [16384] }

/-- 3.7, coding three samples at W = 4: codes 2, 8, 15, the reconstruction 1640, 1512, -228 and k = 27. -/
theorem test_coding_w4 :
    codeSamples profW4 { p := 1000, k := 20, sat := false } [1700, 1500, BitVec.ofInt 16 (-31000)] =
      ([2, 8, 15], [1640, 1512, -228], { p := -228, k := 27, sat := false }) ∧
    decodeCodes profW4 { p := 1000, k := 20, sat := false } [2, 8, 15] = [1640, 1512, -228] ∧
    (packCodes 4 [2, 8, 15]).take 2 = [0x28#8, 0xF0#8] := by decide +kernel

/-- 3.7, coding three samples at W = 3: codes 3, 7, 0, the reconstruction 350, -245, -130, and the first code byte 7Ch. -/
theorem test_coding_w3 :
    let P := { prof with w := 3, step := List.replicate 11 100 ++ List.replicate 4 170 ++ List.replicate 49 230, adj := [-1, 0, 2, 4, 5, 6, 7, 8] }
    codeSamples P { p := 0, k := 10, sat := false } [450, BitVec.ofInt 16 (-200), BitVec.ofInt 16 (-240)] =
      ([3, 7, 0], [350, -245, -130], { p := -130, k := 17, sat := false }) ∧
    (packCodes 3 [3, 7, 0]).take 2 = [0x7C#8, 0x00#8] := by decide +kernel

/-- 3.7, coding at the limits: the prediction is held at 32,767 and at -32768 with SAT, and the index falls by 1. -/
theorem test_coding_at_the_limits :
    codeSamples profW4 { p := 32600, k := 63, sat := false } [0x7FFF#16] = ([0], [32767], { p := 32767, k := 62, sat := true }) ∧
    codeSamples profW4 { p := -32000, k := 40, sat := false } [0x8000#16] = ([8], [-32768], { p := -32768, k := 39, sat := true }) ∧
    (CodeState.move profW4 { p := 0, k := 63, sat := false } false 7).k = 63 ∧
    (CodeState.move profW4 { p := 0, k := 0, sat := false } false 0).k = 0 := by decide +kernel

/-- The handles of a worked list. -/
def hs (a n : Nat) : List Handle := (List.range n).map (fun i => .loc (a + i))

/-- 2.8, the committed list of the worked splices. -/
def list48 : List Segment := [.speech (hs 1 5), .silence 40, .speech (hs 11 3)]

/-- 2.8, worked splices (a) and (d): the overwrites and the locations they hand back. -/
theorem test_overwrite_splices :
    spliceList .overwrite 3 [.speech (hs 21 2), .silence 4] list48 =
      [.speech (hs 1 3), .speech (hs 21 2), .silence 40, .speech (hs 11 3)] ∧
    removedLocs .overwrite 3 [.speech (hs 21 2), .silence 4] list48 = [4, 5] ∧
    spliceList .overwrite 10 [.speech (hs 21 3)] list48 =
      [.speech (hs 1 5), .silence 5, .speech (hs 21 3), .silence 32, .speech (hs 11 3)] ∧
    spliceList .overwrite 46 [.speech (hs 21 4), .gap .overrun] list48 =
      [.speech (hs 1 5), .silence 40, .speech [.loc 11], .speech (hs 21 4), .gap .overrun] ∧
    removedLocs .overwrite 46 [.speech (hs 21 4), .gap .overrun] list48 = [12, 13] := by decide +kernel

/-- 2.8, worked splices (b) and (e): the inserts. -/
theorem test_insert_splices :
    spliceList .insert 2 [.speech [.loc 21]] list48 =
      [.speech (hs 1 2), .speech [.loc 21], .speech (hs 3 3), .silence 40, .speech (hs 11 3)] ∧
    spliceList .insert 20 [.silence 6] list48 = [.speech (hs 1 5), .silence 46, .speech (hs 11 3)] := by decide +kernel

/-- 2.8, building a take from block outcomes: six records, 40 blocks. -/
theorem test_take_from_outcomes :
    let outcomes : List BlockOutcome := (List.range 33).map (fun i => .coded (i + 1)) ++
      [.silent, .silent, .silent, .gap .sequence, .silent, .coded 34, .coded 35]
    outcomes.foldl appendOutcome [] =
      [.speech (hs 1 32), .speech [.loc 33], .silence 3, .gap .sequence, .silence 1, .speech (hs 34 2)] := by decide +kernel

/-- 9.2, a receiver losing and regaining framing: frames 4 to 10. -/
theorem test_receiver_table :
    let bad := Instr.frameReceived .station ⟨true, tooLong⟩ []
    let ok := Instr.key 60 1 2 []
    let t := [bad, bad, bad, bad, bad, ok].foldl (fun s c => after c s) base
    let u := after ok t
    t.station.rx = { Receiver.reset with goodRun := 1 } ∧ u.station.rx = { Receiver.reset with sync := true } ∧
    u.mgmt.part.stationBad = 4 ∧ u.mgmt.part.stationHunts = 1 := by decide +kernel

/-- R153, R155: a frame is found behind an idle byte, behind stray bytes in HUNT, in the middle of a bad frame, and across two arrivals. -/
theorem test_byte_search :
    let f := frameBytes 0x22 0 []
    (after (.frameReceived .pool ⟨true, 0x96 :: f ++ [0xD5]⟩ []) base).pool.flow = .pause ∧
    (after (.frameReceived .pool ⟨true, 0x96 :: f ++ [0xD5]⟩ []) base).pool.rx.buf = [0xD5] ∧
    (after (.frameReceived .pool ⟨true, 0x01 :: 0xD5 :: f⟩ []) (heard .pool false 0 1 base)).pool.rx = { Receiver.reset with goodRun := 1 } ∧
    (after (.frameReceived .pool ⟨true, f⟩ []) (after (.frameReceived .pool ⟨true, [0xD5, 0x3C, 0xFF, 0xFF]⟩ []) base)).pool.flow = .pause ∧
    (after (.frameReceived .pool ⟨true, f.drop 3⟩ []) (after (.frameReceived .pool ⟨true, f.take 3⟩ []) base)).pool.flow = .pause := by
  decide +kernel

/-- R156: after a loss of signal no frame is found until the line receiver reports one again. -/
theorem test_no_signal :
    let s := after (.signalLoss .pool [] []) base
    (after .pause s).pool.flow = .go ∧ (after (.frameReceived .pool ⟨true, frameBytes 0x22 0 []⟩ []) s).pool.rx.goodRun = 1 := by decide +kernel

/-- R154, R156: a frame whose last byte came before the loss of signal is received before it; one that is not whole is dropped and counted. -/
theorem test_whole_frames_before_a_loss :
    let f := frameBytes 0x21 0 [0x01, 0x12, 0x34]
    let s := after (.frameReceived .pool ⟨true, f ++ f⟩ []) base
    let t := after (.signalLoss .pool (f ++ f.take 5) []) s
    s.mgmt.queue.length = 1 ∧ (after (.signalLoss .pool [] []) s).mgmt.queue.length = 2 ∧
    (after (.signalLoss .pool [] []) s).mgmt.part.poolBad = 0 ∧ t.mgmt.queue.length = 3 ∧ t.mgmt.part.poolBad = 1 ∧
    t.mgmt.part.poolHunts = 1 ∧ t.pool.rx = { Receiver.reset with signal := false } := by decide +kernel

/-- 11.4, one reply field by field: the KEY-REPLY for REWIND 20 on channel 7, and a LIMIT for cause MEMORY. -/
theorem test_key_reply_bytes :
    let r : KeyReply := { code := 0x05, result := .done, cause := none, cursor := 56, length := 76, number := 1041 }
    let limit : KeyReply := { r with code := 0x81, result := .full, cause := some .memory }
    ((StationFrame.keyReply 7 r).bytes.take 17) =
      [0xD5, 0x3C, 0x00, 0x0B, 0x11, 0x07, 0x05, 0x00, 0x00, 0x00, 0x38, 0x00, 0x4C, 0x00, 0x00, 0x04, 0x11] ∧
    (StationFrame.keyReply 7 r).bytes.length = 19 ∧
    (keyReplyPayload limit).take 3 = [0x81, 0x04, 0x02] := by decide +kernel

/-- 3.6 and 3.7: CAP 25 shortens a silence of 90 to 25 and leaves 25 and 7; CAP 0 shortens none. -/
theorem test_squeeze : playedDur 25 90 = 25 ∧ playedDur 25 25 = 25 ∧ playedDur 25 7 = 7 ∧ playedDur 0 90 = 90 := by decide

/-- A detection of a kind at a place. -/
def found (k : FaultKind) (p : FaultPlace) : FaultContext := { kind := k, place := p, number := none, chan := none, pos := none }

/-- 10.7, the Fault Record through a morning: counts 2, 2, 2, 0, the context at location 88, and two notices. -/
theorem test_fault_record :
    let made := [(Detector.memory, found .corrected (.location 500)), (.profileTable, found .tableParity (.profileSlot 3)),
      (.memory, found .corrected (.location 900)), (.memory, found .uncorrected (.location 77)),
      (.channelTable, found .tableParity (.channelEntry 4 false)), (.memory, found .uncorrected (.location 88))]
    let s := made.foldl (fun s d => after (.detection d.1) { s with wires := { s.wires with detections := [d.2] } }) base
    s.mgmt.faults.corrected.count = 2 ∧ s.mgmt.faults.uncorrected.count = 2 ∧ s.mgmt.faults.tableParity.count = 2 ∧
    s.mgmt.faults.noResponse.count = 0 ∧ s.mgmt.faults.context = some (found .uncorrected (.location 88)) ∧
    s.pool.control.length = 2 := by decide +kernel

/-- 4.2, the ring through a break: frames 100 to 102, then 105: 256 samples FILLED and 128 FILLED, 4 accepted, 2 concealed. -/
theorem test_ring_through_a_break :
    let cap := { base with capture := base.capture.set 7 { base.capture[7] with state := .capturing } }
    let t := [100, 101, 102, 105].foldl (fun s n => after (.audio 7 (BitVec.ofNat 16 n) quiet []) s) cap
    t.capture[7].expected = some 106 ∧ t.mgmt.chanCounters[7].accepted = 4 ∧ t.mgmt.chanCounters[7].concealed = 2 ∧
    t.capture[7].ring.map (fun e => match e with | .block xs f p => (xs.length, f, p) | .gap _ n => (n, false, false)) =
      [(256, true, false), (128, true, false)] := by decide +kernel

/-- 4.2, overrun during a burst: one frame into four whole blocks. -/
theorem test_overrun :
    let b := RingEntry.block loudBlock false false
    let cap := { base with capture := base.capture.set 7 { ring := [b, b, b, b], state := .capturing, expected := some 5 } }
    let t := after (.audio 7 5 quiet []) cap
    t.capture[7].ring = [.gap .overrun 1, b, b, b, .block quiet false false] ∧ t.mgmt.chanCounters[7].overruns = 1 := by decide +kernel

/-- R5, R15: a REWIND 20 in RECORDING is held, and the letter is FINISHING. -/
theorem test_rewind_in_recording_is_held :
    let t := after (.rewind 7 []) (keyed (inPhase (.recording take0)) 0x05 20)
    t.ctxs[7].held = some { code := 0x05, count := 20 } ∧ t.letters[4].map (fun l => l.phase) = some (.finishing take0) ∧
    t.station.replies[7] = [] := by decide +kernel

/-- R21: REWIND past the start is clamped and DONE. -/
theorem test_rewind_is_clamped :
    let t := after (.rewind 7 []) (keyed (holding letter0) 0x05 20)
    t.letters[4].map (fun l => l.cursor) = some 0 ∧
    t.station.replies[7] = [{ code := 0x05, result := .done, cause := none, cursor := 0, length := 10, number := 612 }] := by
  decide +kernel

/-- R24, R25: END-LETTER closes the letter into the drain queue. -/
theorem test_end_letter_queues :
    let t := after (.endLetter 7 []) (keyed (holding letter0) 0x0A)
    t.drain.issue = [4] ∧ t.ctxs[7].current = none ∧ t.ctxs[7].lastClosed = some (4, 612) := by decide +kernel

/-- R103, R28: on an idle drain the close is the event in which the delivery starts, so a RECALL after it is TOO_LATE; under HOLD the letter
waits, and RELEASE-DRAIN starts it. -/
theorem test_close_starts_the_drain :
    let t := after (.endLetter 7 []) (keyed (holding letter0) 0x0A)
    let held := after (.endLetter 7 []) (keyed { holding letter0 with drain := { base.drain with hold := true } } 0x0A)
    t.letters[(4 : LetterIx)] = some { letter0 with phase := .draining 1 } ∧ t.drain.delivery.map Delivery.next = some .head ∧
      (after (.recall 7 []) (keyed t 0x0D)).station.replies[7].map KeyReply.result = [.done, .tooLate] ∧
      held.drain.delivery = none ∧ (after .releaseDrain (asked held 0x0C [])).drain.delivery.map Delivery.letter = some 4 := by
  decide +kernel

/-- R103, R104: a delivery starts and its LETTER-HEAD carries the length, the segment count and the ticket. -/
theorem test_letter_head :
    let s := { inPhase (.queued 9) with drain := { base.drain with issue := [4] } }
    (after .letterHead (after .drainStart s)).pool.slot = some (.letterHead 612 7 5 .routine 2 3 4 10 4 9) := by decide +kernel

/-- R166: a request in INIT is answered STARTING. -/
theorem test_request_in_init :
    (after .identify (asked (ctrl .init base) 0x01 [])).pool.control =
      [.reply { kind := 0x01, tag := 0x1234, status := .starting, fields := [] }] := by decide +kernel

/-- The queue is first in, first out. -/
theorem test_step_takes_the_front :
    let t := stepped { base with pending := [.pause, .go] }
    t.pending = [.go] ∧ t.pool.flow = .pause := by decide +kernel

/-- No row of the table has bits: no word spells a command. -/
theorem test_no_word_spells_a_command (nbits w : Nat) : decodeTableWord nbits w = none := rfl

/-! ### WellFormed refuses an ill-formed term of each check -/

/-- Settings with a field out of its range. -/
theorem test_ill_formed_settings :
    Settings.inRange { st0 with author := 16777216 } = false ∧ Settings.inRange { st0 with maxDur := 65536 } = false ∧
    Settings.inRange { st0 with maxDur := 0 } = false ∧ Settings.inRange { st0 with minutes := 241 } = false ∧
    Settings.inRange st0 = true := by decide +kernel

/-- Profiles with a field out of its range or a list too short. -/
theorem test_ill_formed_profiles :
    Profile.inRange { prof with w := 5 } = false ∧ Profile.inRange { prof with kInit := 64 } = false ∧
    Profile.inRange { prof with step := [1] } = false ∧ Profile.inRange { prof with step := List.replicate 64 16385 } = false ∧
    Profile.inRange { prof with adj := [1] } = false ∧ Profile.inRange { prof with adj := List.replicate 8 16 } = false ∧
    Profile.inRange { prof with adj := List.replicate 8 (-9) } = false ∧ Profile.inRange { prof with tEnter := 32768 } = false ∧
    Profile.inRange { prof with tLeave := 32768 } = false ∧ Profile.inRange { prof with hang := 16 } = false ∧
    Profile.inRange { prof with cap := 65536 } = false ∧ Profile.inRange prof = true ∧
    Profile.ordered { prof with tEnter := 301, tLeave := 300 } = false ∧ Profile.ordered { prof with step := [2, 1] } = false ∧
    Profile.ordered prof = true := by decide +kernel

/-- Upsets of each of the three kinds, which the tables do not take. -/
theorem test_ill_formed_upsets :
    Upset.wellFormed (.inForce 0 { st0 with minutes := 241 }) = false ∧
    Upset.wellFormed (.pendingCopy 0 { st0 with minutes := 241 }) = false ∧
    Upset.wellFormed (.profile 0 { prof with hang := 16 }) = false ∧
    Upset.wellFormed (.profile 0 { prof with tEnter := 301, tLeave := 300 }) = false ∧ Upset.wellFormed (.profile 0 prof) = true ∧
    (base.upsets [.profile 0 { prof with w := 7 }]).profiles[(0 : Slot)] = base.profiles[(0 : Slot)] := by
  decide +kernel

/-- Frames of the wrong size or kind. -/
theorem test_ill_formed_frames :
    Instr.wellFormed (.audio 0 0 [] []) = false ∧
    Instr.wellFormed (.stationFrameDropped 0x02 (0, [1, 2, 3])) = false ∧
    Instr.wellFormed (.stationFrameDropped 0x02 (0, List.replicate 301 0)) = false ∧
    Instr.wellFormed (.mgmtRequest [1, 2]) = false ∧ Instr.wellFormed (.mgmtRequest (List.replicate 301 0)) = false ∧
    Instr.wellFormed (.poolFrameDropped 0x22 (0, [])) = false ∧
    Instr.wellFormed (.poolFrameDropped 0x22 (0, List.replicate 301 0)) = false ∧
    Instr.wellFormed (.audio 0 0 quiet []) = true := by decide +kernel

/-- An upset that does not fit makes each command that carries upsets ill formed. -/
theorem test_ill_formed_upset_operands :
    let us : List Upset := [.profile 0 { prof with hang := 16 }]
    [Instr.frameReceived .pool ⟨true, tooLong⟩ us, .audio 0 0 quiet us, .signalLoss .pool [] us, .key 0 0 0 us, .recordInsert 0 us,
     .recordOverwrite 0 us, .stop 0 us, .cancelTake 0 us, .rewind 0 us, .forward 0 us, .toStart 0 us, .toEnd 0 us, .review 0 us,
     .endLetter 0 us, .urgentOn 0 us, .urgentOff 0 us, .recall 0 us, .discardArm 0 us, .discard 0 us, .unknownKeyCode 0 us,
     .resetEvent us, .paceExpiry 0 us, .playerReadComplete [] us, .coderService us, .endOfTake 0 us, .noLiveLetterNotice 0 us,
     .reviewStoppedByTheDevice .failed us].all (fun c => !c.wellFormed) = true := by decide +kernel

/-! ### Concrete states and operands that meet the hypotheses of the statements: the step and what every step keeps -/

/-- A state with a letter and a command waiting, from which the invariants are asked. -/
def live : State := { holding letter0 with pending := [.pause] }

theorem witness_StepRunsTheFrontCommand : State.reset.pending = [] := rfl

theorem witness_EveryStepKeepsThePortsSound : PortsSound live ∧ ∃ t, step live = .next t := by
  refine ⟨?_, _, rfl⟩; simp only [PortsSound, Receiver.sound]; decide +kernel

/-- `base` with a few locations free, retired, held and under INIT's write. -/
def places (ctrl : CtrlState) (held : List Held) (waiting : List Access) : State :=
  { base with mem := { base.mem with ctrl := ctrl, free := [(0, 2), (3, 1)], retired := [2], held := held, waiting := waiting }
              pending := [.arbiterGrant] }

theorem witness_EveryStepKeepsBlockMemorySound :
    (let s := places .ready [{ loc := 7, releasing := true, writing := false }] [{ claim := .patrolRead, loc := 7 }]
     MemorySound s ∧ ∃ t, step s = .next t) ∧
    (let s := places .init [] [{ claim := .initWrite, loc := 4 }]
     MemorySound s ∧ ∃ t, step s = .next t) := by
  refine ⟨⟨?_, _, rfl⟩, ⟨?_, _, rfl⟩⟩ <;> simp only [MemorySound, BlockMemory.placesSound] <;> decide +kernel

theorem witness_EveryStepKeepsTheSegmentPool : SegmentsSound live ∧ ∃ t, step live = .next t := by
  refine ⟨?_, _, rfl⟩; unfold SegmentsSound; decide +kernel

theorem witness_EveryStepKeepsTheReferenceCounts :
    (RefsSound live ∧ ∃ t, step live = .next t) ∧
    (Instr.pause ≠ .powerOn ∧ 0 < live.profiles[(2 : Slot)].refs ∧ ∃ t, exec .pause live = .next t) := by
  refine ⟨⟨?_, _, rfl⟩, by decide, by decide +kernel, _, rfl⟩; unfold RefsSound; decide +kernel

theorem witness_EveryStepKeepsLetterNumbersDistinct : (NumbersSound live ∧ ∃ t, step live = .next t) ∧ CountersSound live := by
  refine ⟨⟨⟨by decide +kernel, ?_, ?_⟩, _, rfl⟩, by decide +kernel, by decide +kernel, fun k => by cases k <;> decide +kernel⟩
  · intro i l h
    have hall : ∀ i : LetterIx, (live.letters[i]).all (fun l => decide (1 ≤ l.number ∧ l.number ≤ max32)) = true := by decide +kernel
    have := hall i; rw [h] at this; simpa using this
  · have hone : ∀ i : LetterIx, live.letters[i] ≠ none → i = 4 := by decide +kernel
    intro i j l m h1 h2 _
    rw [hone i (by rw [h1]; simp), hone j (by rw [h2]; simp)]

theorem witness_OnlyPowerOnShortensTheRetiredList : Instr.pause ≠ .powerOn ∧ ∃ t, exec .pause base = .next t :=
  ⟨by decide, _, rfl⟩

/-! ### Compression and segment lists -/

theorem witness_DecodedSamplesEqualTheReconstruction :
    Profile.valid prof = true ∧ Profile.valid { prof with w := 3 } = true ∧ 63 ≤ 63 ∧ loudBlock.length = 256 := by decide +kernel

theorem witness_HangoverCodesTheFirstBlocksBelowTheThreshold :
    Profile.valid prof = true ∧ ∀ e ∈ [299, 0, 299, 299], e < prof.tEnter := by decide +kernel

theorem witness_SpliceGivesTheTimelineAndKeepsTheShape :
    0 ≤ listDur list48 ∧ 48 ≤ listDur list48 ∧ listSound list48 = true ∧ listSound [.silence 6] = true := by decide +kernel

theorem witness_AppendAddsOneBlock : listSound [.speech (hs 1 32)] = true ∧ listSound [] = true := by decide +kernel

/-! ### The links -/

theorem witness_ReceiversFollowTheFramingTable :
    (let f := frameBytes 0x22 0 []
     f.length = 8 ∧ (heard .pool false 0 0 base).pool.rx.sync = false ∧ (heard .pool false 0 0 base).pool.rx.goodRun = 0 ∧
      (heard .pool false 0 1 base).pool.rx.goodRun = 1 ∧
      (heard .pool false 0 1 base (f.take 3)).pool.rx.buf ++ f.drop 3 = List.replicate 0 idleByte ++ (f ++ []) ∧
      (heard .pool false 0 1 base).pool.rx.buf ++ idleByte :: f.take 2 = List.replicate 1 idleByte ++ f.take 2 ∧
      (heard .pool false 0 1 base [0x55]).pool.rx.buf ++ f = 0x55 :: (f ++ []) ∧ (0x55 : Byte) ≠ idleByte ∧ (0x55 : Byte) ≠ startByte) ∧
    (BadFrameAt (heard .pool false 0 1 base).pool.rx startByte tooLong.tail ∧ BadFrameAt (heard .pool true 2 0 base).pool.rx 0x55 [] ∧
      BadFrameAt (heard .pool true 3 0 base).pool.rx startByte [0x00]) ∧
    ((heard .pool true 2 0 base).pool.rx.badRun ≤ 2 ∧ (heard .pool true 3 0 base).pool.rx.badRun = 3 ∧
      (heard .pool true 3 0 base).pool.rx.signal = true ∧ (after (.signalLoss .pool [] []) base).pool.rx.signal = false ∧
      FrameAwaited (heard .pool true 0 0 base).pool.rx [idleByte] false ∧ FrameAwaited (heard .pool false 0 1 base).pool.rx [0x55] false ∧
      FrameAwaited (heard .pool true 0 0 base).pool.rx ((frameBytes 0x22 0 []).take 7) true ∧
      FrameWhole (heard .pool true 0 0 base).pool.rx (idleByte :: frameBytes 0x22 0 [] ++ [0x55]) ∧
      FrameWhole (heard .pool true 0 0 base).pool.rx [0x55]) := by
  refine ⟨by decide +kernel, ⟨.inl ⟨rfl, [0x01, 0x9C], rfl, 0x01, 0x9C, [], rfl, .inl (by decide)⟩,
    .inr ⟨rfl, rfl, by decide, .inl (by decide)⟩, .inr ⟨rfl, rfl, by decide, .inr ⟨0x00, [], rfl, by decide⟩⟩⟩,
    by decide +kernel, by decide +kernel, by decide +kernel, by decide +kernel,
    ⟨[idleByte], [], .inl (by decide), rfl, .inl ⟨rfl, rfl⟩⟩, ⟨[0x55], [], .inr ⟨.inl rfl, by decide⟩, rfl, .inl ⟨rfl, rfl⟩⟩,
    ⟨[], _, .inl (by decide), rfl, .inr ⟨.inr (.inr (.inr ⟨_, _, _, rfl, by decide, by decide⟩)), rfl⟩⟩,
    ⟨[idleByte], .inl (by decide), .inl ⟨0x22, 0, [], [0x55], by decide, rfl⟩⟩,
    ⟨[], .inl (by decide), .inr ⟨0x55, [], rfl, .inr ⟨rfl, rfl, by decide, .inl (by decide)⟩⟩⟩⟩

/-- A take, a review and a take that is ending, on channels 7, 8 and 9, when the station receiver has had three bad frames in a row. -/
def beforeHunt : State :=
  let s := heard .station true 3 0 (inPhase (.recording take0))
  { s with letters := (s.letters.set 5 (some { letter0 with number := 613, phase := .reviewing })).set 6
             (some { letter0 with number := 614, phase := .finishing take0 })
           ctxs := (s.ctxs.set 8 { s.ctxs[8] with current := some 5 }).set 9 { s.ctxs[9] with current := some 6 } }

theorem beforeHunt_sound :
    (∀ (a b : Chan) (i : LetterIx), beforeHunt.ctxs[a].current = some i → beforeHunt.ctxs[b].current = some i → a = b) ∧
    (∀ ch : Chan, (beforeHunt.upsets []).table[ch].damaged = true ∨ (beforeHunt.upsets []).table[ch].inForce.parityOk = true) ∧
    Current beforeHunt 7 4 { letter0 with phase := .recording take0 } ∧
    Current beforeHunt 8 5 { letter0 with number := 613, phase := .reviewing } ∧
    Current beforeHunt 9 6 { letter0 with number := 614, phase := .finishing take0 } := by
  refine ⟨?_, by decide +kernel, by decide +kernel, by decide +kernel, by decide +kernel⟩
  have h : ∀ a b : Chan, beforeHunt.ctxs[a].current = beforeHunt.ctxs[b].current → beforeHunt.ctxs[a].current ≠ none → a = b := by
    decide +kernel
  exact fun a b i ha hb => h a b (ha.trans hb.symm) (by rw [ha]; exact nofun)

theorem witness_StationLinkEntersHunt :
    (beforeHunt.station.rx.sync = true ∧ beforeHunt.station.rx.badRun = 3 ∧ beforeHunt.station.rx.signal = true ∧
      beforeHunt.station.rx.buf ++ tooLong = List.replicate 0 idleByte ++ startByte :: tooLong.tail) ∧
    BadFrameAt beforeHunt.station.rx startByte tooLong.tail ∧
    (∀ (a b : Chan) (i : LetterIx), beforeHunt.ctxs[a].current = some i → beforeHunt.ctxs[b].current = some i → a = b) ∧
    (∀ ch : Chan, ¬EntryWrong (beforeHunt.upsets []) ch) ∧
    (EntryWrong (beforeHunt.upsets [.inForce 8 st0]) 8 ∧ 0 < ({ letter0 with number := 613, phase := .reviewing } : Letter).length) ∧
    FrameAwaited beforeHunt.station.rx (beforeHunt.station.rx.buf ++ []) false ∧
    Current beforeHunt 9 6 { letter0 with number := 614, phase := .finishing take0 } :=
  ⟨by decide +kernel, .inl ⟨rfl, [0x01, 0x9C], rfl, 0x01, 0x9C, [], rfl, .inl (by decide)⟩, beforeHunt_sound.1, by decide +kernel,
    by decide +kernel, ⟨[], [], .inl (by decide), rfl, .inl ⟨rfl, rfl⟩⟩, beforeHunt_sound.2.2.2.2⟩

theorem witness_DeliveredFramesActAsTheirCommands :
    (base.rx .station).signal = true ∧ (base.rx .pool).signal = true ∧
    ((after (.signalLoss .pool [] []) base).rx .pool).signal = false ∧ stationKindFits 0x02 2 = false ∧ poolKindFits 0x23 1 = false ∧
    (let f := frameBytes 0x02 7 [5, 0, 6]
     (base.rx .station).sync = true ∧ (base.rx .station).buf ++ (idleByte :: f) = [idleByte] ++ f ∧ (∀ x ∈ [idleByte], x = idleByte) ∧
      (let s := heard .station true 1 0 base [0x55] true
       (s.rx .station).sync = true ∧ (s.rx .station).seeking = true ∧ (s.rx .station).buf ++ f = [0x55] ++ f ∧
        ∀ x ∈ [(0x55 : Byte)], x ≠ startByte)) := by decide +kernel

/-- The bypass queue holds 63 frames, or 64. -/
def bypassing (n : Nat) : State :=
  { mode .bypass base with pool := { base.pool with bypass := List.replicate n { chan := 3, isKey := true, payload := [] } } }

theorem witness_AudioDroppedStrayOrForwarded :
    quiet.length = 64 ∧
    (Listening (ctrl .init base) .station ∧ (ctrl .init base).mem.ctrl = .init) ∧
    (Listening base .station ∧ base.mem.ctrl ≠ .init ∧ 48 ≤ (48 : Byte).toNat) ∧
    (Listening (spoilt base) .station ∧ (spoilt base).mem.ctrl ≠ .init ∧ (7 : Byte).toNat = (7 : Chan).val ∧
      ((spoilt base).upsets []).table[(7 : Chan)].damaged = true) ∧
    (Listening (wrong (holding letter0)) .station ∧ EntryWrong ((wrong (holding letter0)).upsets []) 7) ∧
    (EntryGood ((mode .blocked base).upsets []) 7 { st0 with mode := .blocked } ∧ (mode .blocked base).mem.ctrl ≠ .init) ∧
    (EntryGood (base.upsets []) 7 st0 ∧ base.capture[(7 : Chan)].state ≠ .capturing) ∧
    (EntryGood ((bypassing 63).upsets []) 7 { st0 with mode := .bypass } ∧ (bypassing 63).pool.bypass.length < 64) ∧
    (EntryGood ((bypassing 64).upsets []) 7 { st0 with mode := .bypass } ∧ 64 ≤ (bypassing 64).pool.bypass.length) := by
  decide +kernel

/-- Channel 7 CAPTURING with a ring and an expected number. -/
def capturing (ring : List RingEntry) (e : Option Word16) : State :=
  { base with capture := base.capture.set 7 { ring := ring, state := .capturing, expected := e } }

/-- A ring with a whole block and a partial one of 192 samples. -/
def ring448 : List RingEntry := [.block loudBlock false false, .block (quiet ++ quiet ++ quiet) false false]

/-- A whole block. -/
def wholeBlock : RingEntry := .block loudBlock false false

/-- Eight gap entries, OVERRUN and SEQUENCE by turns. -/
def eightGaps : List RingEntry := (List.replicate 4 [RingEntry.gap .overrun 1, .gap .sequence 1]).flatten

/-- A ring of two OVERRUN gaps, three whole blocks and a partial one. -/
def ringOverrun : List RingEntry := [.gap .overrun 2, wholeBlock, wholeBlock, wholeBlock, .block (quiet ++ quiet) false false]

/-- The rings that the frames of the next witness find and leave: a concealment of eight blocks that drops two into the OVERRUN entry before
them; a frame in line behind eight gap entries that would need the ninth; a break behind four whole blocks, marked, with the oldest dropped
for the new samples; a break in an empty ring; one whose partial block stands behind a SEQUENCE entry; and one that would need a ninth
entry. -/
theorem witness_rings :
    RoomMade (64 * (8 + 1)) 2 ringOverrun [.gap .overrun 4, wholeBlock, .block (quiet ++ quiet) false false] ∧
    RoomMade (64 * (0 + 1)) 1 (eightGaps ++ [wholeBlock, wholeBlock, wholeBlock, wholeBlock])
      (eightGaps ++ [.gap .overrun 1, wholeBlock, wholeBlock, wholeBlock]) ∧
    (BreakMarked [wholeBlock, wholeBlock, wholeBlock, wholeBlock] [wholeBlock, wholeBlock, wholeBlock, wholeBlock, .gap .sequence 1] ∧
      RoomMade 64 1 [wholeBlock, wholeBlock, wholeBlock, wholeBlock, .gap .sequence 1]
        [.gap .overrun 1, wholeBlock, wholeBlock, wholeBlock, .gap .sequence 1]) ∧
    (BreakMarked [] [.gap .sequence 1] ∧ RoomMade 64 0 [.gap .sequence 1] [.gap .sequence 1]) ∧
    (BreakMarked [wholeBlock, .gap .sequence 2, .block quiet false false] [wholeBlock, .gap .sequence 3] ∧
      RoomMade 64 0 [wholeBlock, .gap .sequence 3] [wholeBlock, .gap .sequence 3]) ∧
    (BreakMarked (eightGaps ++ ring448) (eightGaps ++ [wholeBlock, .gap .sequence 1]) ∧
      RoomMade 64 0 (eightGaps ++ [wholeBlock, .gap .sequence 1]) (eightGaps ++ [wholeBlock, .gap .sequence 1]) ∧
      8 < ringGaps (eightGaps ++ [wholeBlock, .gap .sequence 1])) := by
  have hl : loudBlock.length = 256 := by simp [loudBlock]
  have hq : quiet.length = 64 := by simp [quiet]
  have last (xs : List RingEntry) (b : RingEntry) (c : GapCause) (before : List RingEntry) (n : Nat)
      (h : xs ++ [b] = before ++ [.gap c n]) : b = .gap c n := by simpa using congrArg List.getLast? h
  have room (r : List RingEntry) (n : Nat) (h : (r.map RingEntry.room).sum + n ≤ 1024) : RoomMade n 0 r r := ⟨h, rfl⟩
  have drop (need n : Nat) (r r' r'' : List RingEntry) (h : 1024 < (r.map RingEntry.room).sum + need) (ho : OldestDropped r r')
      (hr : RoomMade need n r' r'') : RoomMade need (n + 1) r r'' := ⟨h, r', ho, hr⟩
  refine ⟨?_, ?_, ⟨?_, ?_⟩, ⟨?_, ?_⟩, ⟨?_, ?_⟩, ?_, ?_, ?_⟩
  · refine drop _ _ _ [.gap .overrun 3, wholeBlock, wholeBlock, .block (quiet ++ quiet) false false] _ ?_
      ⟨[.gap .overrun 2], _, loudBlock, false, false, rfl, by simp [RingEntry.isGap], hl, .inl ⟨[], 2, rfl, by omega, rfl⟩⟩
      (drop _ _ _ _ _ ?_
        ⟨[.gap .overrun 3], _, loudBlock, false, false, rfl, by simp [RingEntry.isGap], hl, .inl ⟨[], 3, rfl, by omega, rfl⟩⟩ (room _ _ ?_)) <;>
      simp [RingEntry.room, ringOverrun, wholeBlock, hl, hq]
  · refine drop _ _ _ _ _ ?_ ⟨eightGaps, _, loudBlock, false, false, rfl, by simp [eightGaps, RingEntry.isGap], hl,
      .inr ⟨fun before n h => (nomatch last (eightGaps.take 7) (.gap .sequence 1) _ before n h), rfl⟩⟩ (room _ _ ?_) <;>
      simp [RingEntry.room, eightGaps, wholeBlock, hl]
  · refine ⟨_, .inr ⟨rfl, fun before ys f p h => ?_⟩,
      .inr ⟨fun before n h => (nomatch last [wholeBlock, wholeBlock, wholeBlock] _ _ before n h), rfl⟩⟩
    have hb : wholeBlock = .block ys f p := by simpa using congrArg List.getLast? h
    rw [← (RingEntry.block.inj hb).1]
    omega
  · refine drop _ _ _ _ _ ?_ ⟨[], _, loudBlock, false, false, rfl, by simp, hl, .inr ⟨by simp, rfl⟩⟩ (room _ _ ?_) <;>
      simp [RingEntry.room, wholeBlock, hl]
  · exact ⟨[], .inr ⟨rfl, by simp⟩, .inr ⟨by simp, rfl⟩⟩
  · exact room _ _ (by simp [RingEntry.room])
  · exact ⟨[wholeBlock, .gap .sequence 2], .inl ⟨quiet, false, false, rfl, by omega⟩, .inl ⟨[wholeBlock], 2, rfl, by omega, rfl⟩⟩
  · exact room _ _ (by simp [RingEntry.room, wholeBlock, hl])
  · exact ⟨eightGaps ++ [wholeBlock], .inl ⟨quiet ++ quiet ++ quiet, false, false, rfl, by simp [hq]⟩,
      .inr ⟨fun before n h => (nomatch last eightGaps _ _ before n h), rfl⟩⟩
  · exact room _ _ (by simp [RingEntry.room, eightGaps, wholeBlock, hl])
  · exact show 8 < 9 by omega

theorem witness_AudioEntersTheRing :
    (let s := capturing ring448 (some 0xFFFC)
     Listening s .station ∧ quiet.length = 64 ∧ (7 : Byte).toNat = (7 : Chan).val ∧ s.mem.ctrl = .ready ∧
      EntryGood (s.upsets []) 7 st0 ∧ st0.mode = .compress ∧ s.capture[(7 : Chan)].state = .capturing ∧
      s.capture[(7 : Chan)].expected = some 0xFFFC ∧ ((4 : Word16) - 0xFFFC).toNat = 8 ∧
      ringRoom s.capture[(7 : Chan)].ring ≤ 1024 ∧ ringRoom s.capture[(7 : Chan)].ring + 64 * (8 + 1) ≤ 1024 ∧ ringGaps ring448 ≤ 8 ∧
      (∀ e ∈ [RingEntry.block loudBlock false false], e.serviceable = true) ∧ (quiet ++ quiet ++ quiet).length % 64 = 0) ∧
    (let s := capturing [] none
     s.capture[(7 : Chan)].expected = none ∧ s.capture[(7 : Chan)].state = .capturing ∧
      ringRoom s.capture[(7 : Chan)].ring + 64 * (0 + 1) ≤ 1024 ∧ ringGaps [] ≤ 8) ∧
    ringRoom ringOverrun ≤ 1024 ∧ ringRoom (eightGaps ++ [wholeBlock, wholeBlock, wholeBlock, wholeBlock]) ≤ 1024 ∧
    ringGaps (eightGaps ++ [.gap .overrun 1, wholeBlock, wholeBlock, wholeBlock]) = 9 ∧
    (let s := capturing (eightGaps ++ ring448) (some 0)
     s.capture[(7 : Chan)].expected = some 0 ∧ s.capture[(7 : Chan)].ring = eightGaps ++ ring448 ∧ 8 < ((9 : Word16) - 0).toNat ∧
      ringRoom s.capture[(7 : Chan)].ring ≤ 1024) := by decide +kernel

/-- Channel 7 with a number of keys in flight and one reply queued. -/
def busy (n : Nat) (s : State) : State :=
  { s with station := { s.station with
      inFlight := s.station.inFlight.set 7 n
      replies := s.station.replies.set 7 [{ code := 1, result := .done, cause := none, cursor := 1, length := 2, number := 3 }] } }

theorem witness_KeyFramesAreAdmittedAndRouted :
    (Listening base .station ∧ 48 ≤ (48 : Byte).toNat ∧ base.mem.ctrl ≠ .init) ∧
    (Listening (busy 15 base) .station ∧ (7 : Byte).toNat = (7 : Chan).val ∧
      16 ≤ (busy 15 base).station.replies[(7 : Chan)].length + (busy 15 base).station.inFlight[(7 : Chan)]) ∧
    (busy 14 base).station.replies[(7 : Chan)].length + (busy 14 base).station.inFlight[(7 : Chan)] < 16 ∧
    (ctrl .init (busy 14 base)).mem.ctrl = .init ∧
    (EntryGood ((busy 14 (bypassing 63)).upsets []) 7 { st0 with mode := .bypass } ∧ (busy 14 (bypassing 63)).pool.bypass.length < 64 ∧
      64 ≤ (busy 14 (bypassing 64)).pool.bypass.length) ∧
    (Listening (wrong (busy 14 base)) .station ∧ EntryWrong ((wrong (busy 14 base)).upsets []) 7) ∧
    ((spoilt (busy 14 base)).upsets []).table[(7 : Chan)].damaged = true ∧
    (EntryGood ((busy 14 base).upsets []) 7 st0 ∧ st0.mode ≠ .bypass) := by decide +kernel

/-- The request queue holds three requests, or four. -/
def queued (n : Nat) : State := { base with mgmt := { base.mgmt with queue := List.replicate n (req 1 []) } }

theorem witness_PortsActOnTheirOwnFrames :
    Listening (queued 3) .pool ∧ 3 ≤ [(1 : Byte), 2, 3].length ∧ (List.replicate 300 (0 : Byte)).length ≤ 300 ∧
    (queued 3).mgmt.queue.length < 4 ∧ Listening (queued 4) .pool ∧ 4 ≤ (queued 4).mgmt.queue.length ∧
    (Listening (after .pause base) .pool ∧ (after .pause base).pool.flow = .pause ∧ base.pool.flow = .go) ∧
    poolKindFits 0x21 2 = false ∧ Listening base .station ∧ stationKindFits 0x02 300 = false := by decide +kernel

/-- Replies on channels 3 and 9, the pointer at 3; and audio likewise. -/
def talking : State :=
  let r : KeyReply := { code := 1, result := .done, cause := none, cursor := 1, length := 2, number := 3 }
  { base with station := { base.station with replies := (base.station.replies.set 9 [r]).set 3 [r], replyPtr := 3 } }

/-- Review audio on channels 3 and 9, no reply, the pointer at 3. -/
def playing : State :=
  let f : ReviewFrame := { seq := 1, pos := 2, index := 3, content := .gap, cond := Conditions.clear, samples := quiet }
  { base with station := { base.station with audio := (base.station.audio.set 9 [f]).set 3 [f], audioPtr := 3 } }

theorem witness_StationBoundaryChoosesInOrder :
    (talking.station.replies[(9 : Chan)] ≠ [] ∧
      ∀ c : Chan, talking.station.replies[c] ≠ [] → cyclicDist talking.station.replyPtr 9 ≤ cyclicDist talking.station.replyPtr c) ∧
    ((∀ c : Chan, playing.station.replies[c] = []) ∧ playing.station.audio[(9 : Chan)] ≠ [] ∧
      ∀ c : Chan, playing.station.audio[c] ≠ [] → cyclicDist playing.station.audioPtr 9 ≤ cyclicDist playing.station.audioPtr c) ∧
    ((∀ c : Chan, base.station.replies[c] = []) ∧ ∀ c : Chan, base.station.audio[c] = []) := by decide +kernel

/-- A notice of a kind. -/
def notice (k : FaultKind) : Notice := { kind := k, count := 1, context := found k (.location 3) }

/-- The pool port with a control queue, owed notices, a bypass queue and a drain slot. -/
def pooled (control : List ControlFrame) (owed : List Notice) (bypass : List BypassFrame) (slot : Option DrainRecord) : State :=
  { base with pool := { base.pool with control := control, bypass := bypass, slot := slot }, mgmt := { base.mgmt with owed := owed } }

theorem witness_PoolBoundaryChoosesInOrder :
    (let s := pooled [.notice (notice .corrected)] [] [] none
     s.pool.control = [.notice (notice .corrected)] ∧ s.mgmt.owed = [] ∧ s.mgmt.heldReply = none) ∧
    (let s := pooled [.notice (notice .corrected)] [notice .corrected, notice .noResponse] [] none
     notice .noResponse ∈ s.mgmt.owed ∧
      ∀ m ∈ s.mgmt.owed, m ≠ notice .noResponse → m.kind.precedence < (notice .noResponse).kind.precedence) ∧
    (∀ r ∈ [({ kind := 0x14, tag := 0, status := .badRequest, fields := [] } : Reply), { kind := 0x14, tag := 0, status := .ok, fields := [] }],
      let s := { pooled [.notice (notice .corrected)] [] [] none with mgmt := { base.mgmt with heldReply := some r } }
      s.pool.control = [.notice (notice .corrected)] ∧ s.mgmt.owed = [] ∧ s.mgmt.heldReply = some r ∧ r.kind = 0x14#8 ∧
        (r.status ≠ .ok ∨ r.status = .ok) ∧ 1 < nLocations ∧ 1 ∉ s.mem.retired) ∧
    ((pooled [] [] [{ chan := 1, isKey := true, payload := [] }] none).pool.control = []) ∧
    (let s := pooled [] [] [] (some (.silence 1 2 3 4))
     s.pool.bypass = [] ∧ s.pool.slot = some (.silence 1 2 3 4) ∧ s.pool.flow = .go ∧ s.pool.rx.sync = true) ∧
    (pooled [] [] [] none).pool.slot = none := by decide +kernel

/-! ### The keys -/

/-- A letter in REVIEWING on channel 7, whose Player waits for a block. -/
def reviewing : State :=
  let s := inPhase .reviewing
  { s with player := s.player.set 7 { seq := 9, review := some { letter := 4, play := none, next := some (.obtaining 3), walk := none,
                                                                  pace := true, late := false } } }

/-- Channel 7 without a current letter, its last-closed letter in a state of its delivery. -/
def closed (p : Phase) : State :=
  let s := inPhase p
  { s with ctxs := base.ctxs.set 7 { base.ctxs[7] with lastClosed := some (4, 612) }, drain := { s.drain with issue := [4] } }

theorem witness_KeysDecidedBeforeTheirOwnRule :
    (let s := keyed (spoilt base) 0x05; s.wires.keys[(7 : Chan)].head? = some { code := 0x05, count := 0 } ∧
      (s.upsets []).table[(7 : Chan)].damaged = true) ∧
    (let s := keyed (wrong (holding letter0)) 0x05; s.wires.keys[(7 : Chan)].head? = some { code := 0x05, count := 0 } ∧
      EntryWrong (s.upsets []) 7) ∧
    EntryGood ((keyed (mode .bypass base) 0x05).upsets []) 7 { st0 with mode := .bypass } ∧
    (let s := { base with wires := { base.wires with keys := base.wires.keys.set 7 [{ code := 0x05, count := 0, spoilt := true }] } }
     s.wires.keys[(7 : Chan)].head? = some { code := 0x05, count := 0, spoilt := true } ∧ EntryGood (s.upsets []) 7 st0) ∧
    (EntryGood ((keyed (ctrl .failed base) 0x09).upsets []) 7 st0 ∧ (ctrl .failed base).mem.ctrl = .failed ∧
      (0x09 : Byte) ∉ [0x05#8, 0x06#8, 0x07#8, 0x08#8, 0x0A#8] ∧
      ∀ i l t, Current (keyed (ctrl .failed base) 0x09) 7 i l → l.phase ≠ .finishing t) ∧
    (let s := keyed (ctrl .failed (closed (.queued 5))) 0x0D
     EntryGood (s.upsets []) 7 st0 ∧ s.mem.ctrl = .failed ∧ s.ctxs[(7 : Chan)].current = none ∧
      (0x0D : Byte) ∉ [0x05#8, 0x06#8, 0x07#8, 0x08#8, 0x0A#8]) ∧
    (EntryGood ((keyed base 0x10).upsets []) 7 st0 ∧ base.mem.ctrl ≠ .failed ∧ 0x10#8 ≤ (0x10 : Byte) ∧
      ∀ i l t, Current (keyed base 0x10) 7 i l → l.phase ≠ .finishing t) := by
  have h1 : (keyed (ctrl .failed base) 0x09).ctxs[(7 : Chan)].current = none := by decide +kernel
  have h2 : (keyed base 0x10).ctxs[(7 : Chan)].current = none := by decide +kernel
  exact ⟨by decide +kernel, by decide +kernel, by decide +kernel, by decide +kernel,
    ⟨by decide +kernel, by decide +kernel, by decide +kernel, fun i l t h => nomatch h1.symm.trans h.1⟩, by decide +kernel,
    ⟨by decide +kernel, by decide +kernel, by decide +kernel, fun i l t h => nomatch h2.symm.trans h.1⟩⟩

theorem witness_KeysInFinishingAreHeld :
    (∀ code ∈ [(0x04 : Byte), 0x05], KeyWaits (keyed (inPhase (.finishing take0)) code) [] 7 { code := code, count := 0 } st0 ∧
      Current (keyed (inPhase (.finishing take0)) code) 7 4 { letter0 with phase := .finishing take0 }) ∧
    st0.mode = .compress ∧ (keyed (inPhase (.finishing take0)) 0x05).ctxs[(7 : Chan)].held = none ∧
    (let s := inPhase (.finishing take0)
     let s' := { s with ctxs := s.ctxs.set 7 { s.ctxs[7] with held := some { code := 0x05, count := 3 } } }
     KeyWaits (keyed s' 0x01) [] 7 { code := 0x01, count := 0 } st0 ∧ s'.ctxs[(7 : Chan)].held ≠ none ∧
      Current (keyed s' 0x01) 7 4 { letter0 with phase := .finishing take0 }) := by decide +kernel

theorem witness_KeysTheLettersStateDecides :
    (∀ h ∈ [HandsetKey.stop, .cancelTake, .rewind, .forward, .toStart, .toEnd, .review, .endLetter, .discardArm, .discard],
      KeyWaits (keyed base h.code) [] 7 { code := h.code, count := 0 } st0 ∧ (keyed base h.code).currentLetter 7 = none ∧
        (keyed base h.code).mem.ctrl ≠ .failed) ∧
    KeyWaits (keyed (ctrl .failed base) 0x0A) [] 7 { code := 0x0A, count := 0 } st0 ∧
    (∀ hp ∈ [(HandsetKey.recordInsert, Phase.recording take0), (.recordOverwrite, .recording take0), (.review, .recording take0),
        (.discardArm, .recording take0), (.recall, .recording take0), (.recordInsert, .reviewing), (.recordOverwrite, .reviewing),
        (.review, .reviewing), (.discardArm, .reviewing), (.recall, .reviewing), (.cancelTake, .reviewing), (.cancelTake, .opened),
        (.recall, .opened)],
      KeyWaits (keyed (inPhase hp.2) hp.1.code) [] 7 { code := hp.1.code, count := 0 } st0 ∧ refusedIn hp.1 hp.2 = true ∧
        Current (keyed (inPhase hp.2) hp.1.code) 7 4 { letter0 with phase := hp.2 } ∧ (inPhase hp.2).mem.ctrl ≠ .failed) ∧
    (let s := inPhase .opened
     let s' := { s with ctxs := s.ctxs.set 7 { s.ctxs[7] with armed := false } }
     KeyWaits (keyed s' 0x0F) [] 7 { code := 0x0F, count := 0 } st0 ∧ s'.ctxs[(7 : Chan)].armed = false ∧
      Current (keyed s' 0x0F) 7 4 letter0 ∧ ∀ t, letter0.phase ≠ .finishing t) ∧
    (KeyWaits (keyed (inPhase .opened) 0x03) [] 7 { code := 0x03, count := 0 } st0 ∧ letter0.phase = .opened) :=
  ⟨by decide +kernel, by decide +kernel, by decide +kernel, ⟨by decide +kernel, by decide +kernel, by decide +kernel, fun _ h => nomatch h⟩,
    by decide +kernel⟩

theorem witness_MotionKeysAndStopOfAReview :
    (∀ cn ∈ [((0x05 : Byte), 1), (0x05, 65535), (0x06, 1), (0x06, 65535), (0x07, 0), (0x08, 0), (0x05, 0), (0x06, 0)],
      KeyWaits (keyed (holding letter0) cn.1 cn.2) [] 7 { code := cn.1, count := cn.2 } st0 ∧
        Current (keyed (holding letter0) cn.1 cn.2) 7 4 letter0) ∧ letter0.phase = .opened ∧
    (∀ cn ∈ [((0x03 : Byte), 0), (0x05, 1), (0x06, 65535), (0x07, 0), (0x08, 0), (0x05, 0), (0x06, 0)],
      KeyWaits (keyed reviewing cn.1 cn.2) [] 7 { code := cn.1, count := cn.2 } st0 ∧ reviewing.mem.ctrl ≠ .failed ∧
        Current (keyed reviewing cn.1 cn.2) 7 4 { letter0 with phase := .reviewing }) := by decide +kernel

theorem witness_StopAndCancelOfARecordingTake :
    ∀ code ∈ [(0x03 : Byte), 0x04, 0x05, 0x06, 0x07, 0x08, 0x0A],
      KeyWaits (keyed (inPhase (.recording take0)) code) [] 7 { code := code, count := 0 } st0 ∧ st0.mode = .compress ∧
        (inPhase (.recording take0)).mem.ctrl ≠ .failed ∧
        Current (keyed (inPhase (.recording take0)) code) 7 4 { letter0 with phase := .recording take0 } := by decide +kernel

theorem witness_ReviewStartsThePlayer :
    (∀ s ∈ [slot2 .damaged (holding letter0), holding { letter0 with cursor := 10 }, holding { letter0 with cursor := 9 },
        holding { letter0 with cursor := 3 }],
      KeyWaits (keyed s 0x09) [] 7 { code := 0x09, count := 0 } st0 ∧ s.mem.ctrl = .ready) ∧
    (((slot2 .damaged (holding letter0)).upsets []).profiles[letter0.slot].status = .damaged ∧
      Current (slot2 .damaged (holding letter0)) 7 4 letter0) ∧
    ((holding letter0).upsets []).profiles[letter0.slot].status ≠ .damaged ∧ ({ letter0 with cursor := 10 } : Letter).length = 10 ∧
    (Current (holding { letter0 with cursor := 9 }) 7 4 { letter0 with cursor := 9 } ∧ 9 < letter0.length ∧
      locate letter0.list 9 = some (3, 0) ∧ letter0.list[3]? = some (.speech [.loc 12])) ∧
    (Current (holding letter0) 7 4 letter0 ∧ letter0.cursor < letter0.length ∧ locate letter0.list letter0.cursor = some (1, 0) ∧
      letter0.list[1]? = some (.silence 5) ∧ (holding letter0).station.audio[(7 : Chan)].length < 8) := by decide +kernel

theorem witness_EndLetterClosesTheLetter :
    ∀ l ∈ [letter0, { letter0 with list := [], cursor := 0 }, { letter0 with phase := .reviewing }],
      KeyWaits (keyed (holding l) 0x0A) [] 7 { code := 0x0A, count := 0 } st0 ∧ Current (keyed (holding l) 0x0A) 7 4 l ∧
        (l.phase = .opened ∨ l.phase = .reviewing) := by decide +kernel

theorem witness_ClassKeysAndRecall :
    (KeyWaits (keyed (inPhase (.recording take0)) 0x0B) [] 7 { code := 0x0B, count := 0 } st0 ∧
      Current (keyed (inPhase (.recording take0)) 0x0B) 7 4 { letter0 with phase := .recording take0 } ∧
      ∀ t, ({ letter0 with phase := .recording take0 } : Letter).phase ≠ .finishing t) ∧
    (∀ code ∈ [(0x0B : Byte), 0x0C, 0x0D], KeyWaits (keyed base code) [] 7 { code := code, count := 0 } st0 ∧
      (keyed base code).ctxs[(7 : Chan)].current = none ∧ (keyed base code).ctxs[(7 : Chan)].lastClosed = none) ∧
    (∀ p ∈ [Phase.queued 5, .draining 5, .suspended 5], ∀ code ∈ [(0x0B : Byte), 0x0C, 0x0D],
      KeyWaits (keyed (closed p) code) [] 7 { code := code, count := 0 } st0 ∧ (closed p).mem.ctrl ≠ .failed ∧
        (keyed (closed p) code).ctxs[(7 : Chan)].current = none ∧
        (keyed (closed p) code).ctxs[(7 : Chan)].lastClosed = some (4, 612) ∧
        (keyed (closed p) code).letters[(4 : LetterIx)] = some { letter0 with phase := p } ∧ letter0.number = 612 ∧
        letter0.cls = .routine ∧ letter0.cls ≠ .urgent) ∧
    (let s := keyed { closed (.queued 5) with letters := base.letters } 0x0D
     KeyWaits s [] 7 { code := 0x0D, count := 0 } st0 ∧ s.ctxs[(7 : Chan)].lastClosed = some (4, 612) ∧
      s.letters[(4 : LetterIx)] = none) ∧
    (∀ code ∈ [(0x0B : Byte), 0x0C, 0x0D], let s := keyed (ctrl .failed (closed (.queued 5))) code
      KeyWaits s [] 7 { code := code, count := 0 } st0 ∧ s.mem.ctrl = .failed ∧ s.ctxs[(7 : Chan)].current = none) :=
  ⟨⟨by decide +kernel, by decide +kernel, fun _ h => nomatch h⟩, by decide +kernel, by decide +kernel, by decide +kernel,
    by decide +kernel⟩

theorem witness_DiscardTakesTwoKeys :
    ∀ code ∈ [(0x0E : Byte), 0x0F], KeyWaits (keyed (holding letter0) code) [] 7 { code := code, count := 0 } st0 ∧
      Current (keyed (holding letter0) code) 7 4 letter0 ∧ (holding letter0).mem.ctrl ≠ .failed ∧
      (keyed (holding letter0) code).ctxs[(7 : Chan)].armed = true := by decide +kernel

/-- Every letter record holds a letter. -/
def full (s : State) : State := { s with letters := Vector.replicate 96 (some letter0) }

/-- No segment record is free. -/
def noRecord (s : State) : State := { s with freeSegs := 0 }

/-- No location is free. -/
def noLocation (s : State) : State := { s with mem := { s.mem with free := [] } }

/-- The same letter with a smaller max duration. -/
def short : Letter := { letter0 with maxDur := 10 }

/-- Channel 7's Capture has a request to take. -/
def requested (q : CaptureRequest) (s : State) : State :=
  { s with wires := { s.wires with captureRequests := s.wires.captureRequests.set 7 [q] } }

theorem witness_RecordStartsATakeOrIsRefused :
    (∀ s ∈ [holding letter0, base], ∀ code ∈ [(0x01 : Byte), 0x02],
      KeyWaits (keyed s code) [] 7 { code := code, count := 0 } st0 ∧ s.mem.ctrl = .ready ∧ s.reserve < s.freeSegs ∧
        s.mem.free ≠ [] ∧ s.wires.captureRequests[(7 : Chan)] = [] ∧ (s.upsets []).profiles[letter0.slot].status = .ready ∧
        (s.upsets []).profiles[letter0.slot].parityOk = true ∧ (s.upsets [.profile 2 prof]).profiles[letter0.slot].parityOk = false) ∧
    (∀ s ∈ [holding letter0, base], ∀ q ∈ [CaptureRequest.cancelled, .finishing],
      (requested q (keyed s 0x01)).wires.captureRequests[(7 : Chan)] = [q]) ∧
    (Current (keyed (holding letter0) 0x01) 7 4 letter0 ∧ letter0.length < letter0.maxDur) ∧
    ((keyed base 0x01).ctxs[(7 : Chan)].current = none ∧ base.letters[(0 : LetterIx)] = none ∧
      base.mgmt.letterCounter ∉ base.numbersHeld) ∧
    (∀ i : LetterIx, (full base).letters[i] ≠ none) ∧
    ((slot2 .empty base).upsets []).profiles[st0.slot].status = .empty ∧
    ((slot2 .damaged base).upsets []).profiles[st0.slot].status = .damaged ∧
    (noRecord base).freeSegs ≤ (noRecord base).reserve ∧ (noLocation base).mem.free = [] ∧
    (Current (keyed (slot2 .damaged (holding letter0)) 0x01) 7 4 letter0 ∧
      ((slot2 .damaged (holding letter0)).upsets []).profiles[letter0.slot].status = .damaged) ∧
    (Current (keyed (holding short) 0x01) 7 4 short ∧ short.maxDur ≤ short.length) ∧
    (Current (keyed (noRecord (holding letter0)) 0x01) 7 4 letter0 ∧
      (noRecord (holding letter0)).freeSegs ≤ (noRecord (holding letter0)).reserve) := by
  refine ⟨?_, ?_, ?_, ?_, ?_, ?_, ?_, ?_, ?_, ?_, ?_, ?_⟩ <;> decide +kernel

/-! ### Management requests -/

theorem witness_BadRequestsAndRequestsInInit :
    (let s := asked base 0x15 []; s.mgmt.idle = true ∧ s.mgmt.queue.head? = some (req 0x15 []) ∧ (req 0x15 []).fits = false) ∧
    ((0x14#8, Instr.softReset) ∈ requestCommands ∧ RequestAt (asked (ctrl .init base) 0x14 []) 0x14 (req 0x14 []) ∧
      (ctrl .init base).mem.ctrl = .init) := by decide +kernel

/-- Twenty QUEUED letters. -/
def twenty : State :=
  { base with
    letters := Vector.ofFn (fun i => if i.val < 20 then some { letter0 with number := i.val + 1, phase := .queued i.val } else none)
    drain := { base.drain with issue := (List.finRange 96).take 20 } }

theorem witness_ReadRequestsAreAnswered :
    base.mem.ctrl ≠ .init ∧
    (∀ kf ∈ [((0x01 : Byte), ([] : List Byte)), (0x04, [15]), (0x04, [16]), (0x0D, []), (0x10, [47]), (0x10, [0xFE]), (0x10, [0xFF]),
        (0x10, [48]), (0x02, [47]), (0x02, [48]), (0x07, byte4 0), (0x07, byte4 612), (0x08, [0, 95]), (0x08, [1, 0]), (0x08, [2, 0])],
      RequestAt (asked base kf.1 kf.2) kf.1 (req kf.1 kf.2)) ∧
    base.ctxs[(47 : Chan)].lastClosed = none ∧ fieldAt (byte4 612) 0 4 = 612 ∧
    (∀ p ∈ [Phase.opened, .recording take0, .queued 5, .draining 5, .suspended 5],
      (inPhase p).letters[(4 : LetterIx)] = some { letter0 with phase := p }) ∧
    (∀ p ∈ [Phase.opened, .queued 5], (closed p).ctxs[(7 : Chan)].lastClosed = some (4, 612) ∧
      (closed p).letters[(4 : LetterIx)] = some { letter0 with phase := p } ∧ letter0.number = 612) ∧
    (let d : Delivery := { letter := 4, number := 612, next := .body, seg := 1, handle := 0, pos := 3, body := 3, damaged := 0, abort := true }
     let s := inPhase (.draining 5)
     ({ s with drain := { s.drain with delivery := some d } } : State).drain.delivery = some d ∧ d.letter = 4) ∧
    (let selected := twenty.heldLetters.filter (fun il => decide (0 ≤ il.1.val))
     16 < selected.length ∧ (selected[15]?).isSome = true ∧ 16 < (twenty.issueLetters.drop 3).length ∧
      (twenty.issueLetters.drop 4).length ≤ 16) := by decide +kernel

/-- A whole WRITE-CHANNEL request for channel 7. -/
def entry7 : List Byte := byte1 7 ++ settingsBytes st0

theorem witness_WriteChannelSetsOrStagesTheEntry :
    (∀ f ∈ [[48, 1, 0, 0, 0, 0, 0, 0, 1, 0], [7, 3, 0, 0, 0, 0, 0, 0, 1, 0], [7, 1, 0, 0, 0, 16, 0, 0, 1, 0], [7, 1, 0, 0, 0, 0, 2, 0, 1, 0],
        [7, 1, 0, 0, 0, 0, 0, 0, 0, 0], [7, 1, 0, 0, 0, 0, 0, 0, 1, 241]],
      RequestAt (asked base 0x03 f) 0x03 (req 0x03 f) ∧
        (48 ≤ fieldAt f 0 1 ∨ 2 < fieldAt f 1 1 ∨ 15 < fieldAt f 5 1 ∨ 1 < fieldAt f 6 1 ∨ fieldAt f 7 2 = 0 ∨ 240 < fieldAt f 9 1)) ∧
    (∀ s ∈ [holding letter0, spoilt (holding letter0), base], s.mem.ctrl ≠ .init ∧ RequestAt (asked s 0x03 entry7) 0x03 (req 0x03 entry7)) ∧
    (st0.author < 16777216 ∧ 1 ≤ st0.maxDur ∧ st0.maxDur ≤ 65535 ∧ st0.minutes ≤ 240) ∧
    ((holding letter0).table[(7 : Chan)].damaged = false ∧ (holding letter0).ctxs[(7 : Chan)].current ≠ none) ∧
    (spoilt (holding letter0)).table[(7 : Chan)].damaged = true ∧
    (base.ctxs[(7 : Chan)].current = none ∧ base.wires.noLive[(7 : Chan)] = 0) := by decide +kernel

/-- A WRITE-PROFILE request for a slot. -/
def image (k : Nat) (P : Profile) : List Byte := byte1 k ++ profileBytes P

theorem witness_ProfileWritesAndClears :
    (∀ kf ∈ [((0x05 : Byte), image 16 prof), (0x05, image 2 prof), (0x05, image 15 { prof with hang := 16 }), (0x05, image 15 prof),
        (0x06, [16]), (0x06, [2]), (0x06, [15])],
      RequestAt (asked (holding letter0) kf.1 kf.2) kf.1 (req kf.1 kf.2)) ∧
    (holding letter0).mem.ctrl ≠ .init ∧ fieldAt (image 16 prof) 0 1 = 16 ∧ fieldAt (image 2 prof) 0 1 = (2 : Slot).val ∧
    0 < (holding letter0).profiles[(2 : Slot)].refs ∧ (holding letter0).profiles[(15 : Slot)].refs = 0 ∧
    Profile.valid (profileField (image 15 { prof with hang := 16 }) 1) = false ∧ Profile.valid prof = true ∧
    State.reset.profiles[(15 : Slot)].status = .empty ∧ (holding letter0).profiles[(15 : Slot)].status ≠ .empty := by decide +kernel

theorem witness_ForceCloseStopsOrCloses :
    (∀ b ∈ [(48 : Byte), 7], RequestAt (asked (holding letter0) 0x09 [b]) 0x09 (req 0x09 [b])) ∧
    (RequestAt (asked base 0x09 [7]) 0x09 (req 0x09 [7]) ∧ (asked base 0x09 [7]).currentLetter 7 = none) ∧
    (∀ p ∈ [Phase.recording take0, .finishing take0, .finishing (takeStopped take0 .entry), .opened, .reviewing],
      RequestAt (asked (inPhase p) 0x09 [7]) 0x09 (req 0x09 [7]) ∧ Current (asked (inPhase p) 0x09 [7]) 7 4 { letter0 with phase := p }) ∧
    Current (asked (holding { letter0 with list := [] }) 0x09 [7]) 7 4 { letter0 with list := [] } := by decide +kernel

/-- A delivery of the letter at index 4 with its next record. -/
def delivery (next : NextRecord) (seg handle : Nat) : Delivery :=
  { letter := 4, number := 612, next := next, seg := seg, handle := handle, pos := 2, body := 2, damaged := 0, abort := false }

theorem base_holds_no_letter : ∀ i : LetterIx, base.letters[i] = none := by decide +kernel

theorem base_counts_from_one : 1 ≤ base.mgmt.letterCounter ∧ base.mgmt.letterCounter ≤ max32 := by decide +kernel

/-- Where one letter is held its number is like no other. -/
theorem numbers_of_one (l : Letter) (h1 : 1 ≤ l.number) (h2 : l.number ≤ max32) (kind : Byte) (f : List Byte) :
    NumbersSound (asked (holding l) kind f) := by
  have hl : (asked (holding l) kind f).letters = base.letters.set 4 (some l) := rfl
  have hat : ∀ (i : LetterIx) (m : Letter), (asked (holding l) kind f).letters[i] = some m → i = 4 ∧ m = l := by
    intro i m h
    rw [hl] at h
    by_cases hi : i = 4
    · subst hi; simp only [Fin.getElem_fin, Vector.getElem_set] at h; exact ⟨rfl, by simpa using h.symm⟩
    · have h' := base_holds_no_letter i
      simp only [Fin.getElem_fin] at h h'
      rw [Vector.getElem_set_ne _ _ (by intro hv; exact hi (Fin.ext hv.symm))] at h
      rw [h'] at h; exact absurd h nofun
  refine ⟨base_counts_from_one, ?_, ?_⟩
  · intro i m h; obtain ⟨-, rfl⟩ := hat i m h; exact ⟨h1, h2⟩
  · intro i j m n hm hn _; rw [(hat i m hm).1, (hat j n hn).1]

theorem witness_AbortLetterActsByState :
    (∀ n ∈ [0, 612], RequestAt (asked (holding letter0) 0x0A (byte4 n)) 0x0A (req 0x0A (byte4 n))) ∧
    (∀ p : Phase, NumbersSound (asked (inPhase p) 0x0A (byte4 612))) ∧
    (letter0.number = fieldAt (byte4 612) 0 4 ∧ letter0.number ≠ fieldAt (byte4 0) 0 4) ∧ Phase.opened.ticket? = none ∧
    (∀ p ∈ [Phase.opened, .queued 9, .draining 9, .suspended 9],
      (asked (inPhase p) 0x0A (byte4 612)).letters[(4 : LetterIx)] = some { letter0 with phase := p } ∧ (inPhase p).mem.ctrl = .ready) ∧
    (ctrl .failed (inPhase (.draining 9))).mem.ctrl = .failed :=
  ⟨by decide +kernel, fun _ => numbers_of_one _ (by simp [letter0]) (by simp [letter0, max32]) _ _, by decide +kernel, by decide, by decide +kernel, rfl⟩

theorem witness_RequestsWithAFieldOrNone :
    ∀ kf ∈ [((0x0B : Byte), ([] : List Byte)), (0x0C, []), (0x13, [0]), (0x13, [1]), (0x13, [2]), (0x11, [47]), (0x11, [0xFE]), (0x11, [0xFF]),
        (0x11, [48]), (0x11, [0xFD]), (0x0E, [15]), (0x0E, [16]), (0x0F, [3]), (0x0F, [4]), (0x12, byte4 0), (0x12, byte4 4294967295),
        (0x14, [])],
      RequestAt (asked base kf.1 kf.2) kf.1 (req kf.1 kf.2) ∧ base.mem.ctrl ≠ .init := by decide +kernel

theorem witness_HoldPatrolAndCounterRequests :
    RequestAt (asked base 0x0B []) 0x0B (req 0x0B []) ∧
    (let s := { base with drain := { base.drain with hold := true } }
     RequestAt (asked s 0x0C []) 0x0C (req 0x0C []) ∧ s.drain.hold = true ∧ base.drain.hold = false) ∧
    RequestAt (asked base 0x11 [47]) 0x11 (req 0x11 [47]) ∧
    (47 : Byte).toNat = (47 : Chan).val ∧ 48 ≤ (0xFD : Byte).toNat ∧ (0xFD : Byte).toNat < 0xFE := by decide +kernel

/-- The OK reply of a SOFT-RESET. -/
def resetReply : Reply := { kind := 0x14, tag := 0x1234, status := .ok, fields := [] }

/-- The OK reply of a SOFT-RESET is held; channels 7 and 9 have pending copies, the second's parity wrong. -/
def resetting : State :=
  { base with mgmt := { base.mgmt with heldReply := some resetReply }, mem := { base.mem with retired := [0] }
              table := (base.table.set 7 { base.table[7] with pendingCopy := some { settings := st0, parityOk := true } }).set 9
                { base.table[9] with pendingCopy := some { settings := st0, parityOk := false } } }

/-- The same with the control queue full, as it is when a reply is held. -/
def resetAtBoundary : State :=
  { resetting with pool := { resetting.pool with control := List.replicate 8 (.notice (notice .corrected)) } }

theorem witness_SetLetterBaseSetsTheCounter :
    RequestAt (asked base 0x12 (byte4 4294967295)) 0x12 (req 0x12 (byte4 4294967295)) ∧ fieldAt (byte4 0) 0 4 = 0 ∧
    fieldAt (byte4 4294967295) 0 4 ≠ 0 ∧ (holding letter0).letters[(4 : LetterIx)] ≠ none ∧ (∀ i : LetterIx, base.letters[i] = none) ∧
    (resetAtBoundary.mgmt.heldReply = some resetReply ∧ resetReply.kind = 0x14#8 ∧ resetReply.status = .ok ∧
      resetAtBoundary.pool.control = .notice (notice .corrected) :: List.replicate 7 (.notice (notice .corrected)) ∧
      resetAtBoundary.mgmt.owed = []) ∧
    (RequestAt (asked base 0x14 []) 0x14 (req 0x14 []) ∧ base.mem.ctrl ≠ .init ∧ (asked base 0x14 []).pool.control.length < 8) := by
  decide +kernel

theorem witness_ClearFaultsClearsTheKindsNamed :
    RequestAt (asked base 0x0E [16]) 0x0E (req 0x0E [16]) ∧ RequestAt (asked base 0x0E [15]) 0x0E (req 0x0E [15]) ∧
    16 ≤ (16 : Byte).toNat ∧ (15 : Byte).toNat < 16 := by decide +kernel

theorem witness_SetNoticesSetsTheLevel :
    RequestAt (asked base 0x0F [4]) 0x0F (req 0x0F [4]) ∧ RequestAt (asked base 0x0F [3]) 0x0F (req 0x0F [3]) ∧
    3 < (4 : Byte).toNat ∧
    (resetAtBoundary.mgmt.heldReply = some resetReply ∧ resetAtBoundary.mgmt.owed = [] ∧
      resetAtBoundary.pool.control = .notice (notice .corrected) :: List.replicate 7 (.notice (notice .corrected))) ∧ RequestAt (asked base 0x14 []) 0x14 (req 0x14 []) := by
  decide +kernel

theorem witness_SoftResetAndTheResetEvent :
    (RequestAt (asked base 0x14 []) 0x14 (req 0x14 []) ∧ base.mem.ctrl ≠ .init ∧ base.pool.control.length < 8 ∧
      1 < nLocations ∧ 1 ∉ base.mem.retired) ∧
    8 ≤ (pooled (List.replicate 8 (.notice (notice .corrected))) [] [] none).pool.control.length ∧
    (resetting.mgmt.heldReply = some resetReply ∧ resetReply.kind = 0x14#8 ∧ resetReply.status = .ok ∧ resetting.pool.control.length < 8 ∧
      resetting.mgmt.owed = [] ∧ 1 ∉ resetting.mem.retired) ∧
    (let s := { resetting with mgmt := { resetting.mgmt with owed := [notice .corrected] } }
     s.mgmt.heldReply = some resetReply ∧ s.mgmt.owed ≠ []) ∧
    (let s := resetAtBoundary
     s.mgmt.heldReply = some resetReply ∧ s.mgmt.owed = [] ∧ 8 ≤ s.pool.control.length ∧
      s.pool.control = .notice (notice .corrected) :: List.replicate 7 (.notice (notice .corrected)) ∧ 1 ∉ s.mem.retired) ∧
    ((asked base 0x14 []).mgmt.heldReply = none ∧ (ctrl .init base).mgmt.heldReply = none ∧ (ctrl .init base).mem.ctrl = .init) := by
  decide +kernel

/-- R166, R180: the reply of a SOFT-RESET that was held joins at the frame boundary that gives the room, and the reset is taken there. -/
theorem test_reset_at_the_boundary :
    let s := resetAtBoundary
    let t := after .poolFrameBoundary s
    t.mem.ctrl = .init ∧ t.mgmt.heldReply = none ∧ t.pool.control.getLast? = some (.reply resetReply) ∧ t.pool.control.length = 8 ∧
    t.pool.sending = some (.control (.notice (notice .corrected))) ∧
    (after (.resetEvent []) s).mem.ctrl = .init ∧ (after (.resetEvent []) s).pool = t.pool := by decide +kernel

/-! ### Timers and block memory -/

theorem witness_IdleExpiryClosesTheLetter :
    ∀ l ∈ [letter0, { letter0 with list := [] }], Current (holding l) 7 4 l ∧ l.phase = .opened ∧
      (holding l).ctxs[(7 : Chan)].idle ≠ none := by decide +kernel

/-- A block of audio at a position. -/
def audioAt (p : Nat) : BlockAudio := { pos := p, content := .silence, cond := Conditions.clear, samples := loudBlock }

/-- A review in progress on channel 7, or late. -/
def inReview (play : Option PlayBlock) (next : Option NextBlock) (cursor : Nat := 3) (walk : Option (Nat × Nat) := none)
    (pace : Bool := true) : State :=
  let s := holding { letter0 with phase := .reviewing, cursor := cursor }
  { s with player := s.player.set 7 { seq := 9, review := some { letter := 4, play := play, next := next, walk := walk, pace := pace,
                                                                  late := !pace } } }

/-- Eight review audio frames of channel 7 wait. -/
def crowded (s : State) : State :=
  let f : ReviewFrame := { seq := 1, pos := 2, index := 3, content := .gap, cond := Conditions.clear, samples := quiet }
  { s with station := { s.station with audio := s.station.audio.set 7 (List.replicate 8 f) } }

theorem witness_PaceExpiryPlaysOn :
    (∀ sent ∈ [0, 3], ∀ next ∈ [some (NextBlock.ready (audioAt 4)), some (.obtaining 4), none], ∀ walk ∈ [some (1, 1), none],
      (inReview (some { audio := audioAt 3, sent := sent }) next 3 walk).player[(7 : Chan)].review =
        some { letter := 4, play := some { audio := audioAt 3, sent := sent }, next := next, walk := walk, pace := true, late := false } ∧
      sent ≤ 3) ∧
    (inReview none none).letters[(4 : LetterIx)] = some { letter0 with phase := .reviewing } ∧
    (inReview none none).station.audio[(7 : Chan)].length < 8 ∧ 8 ≤ (crowded (inReview none none)).station.audio[(7 : Chan)].length ∧
    (let s := inReview (some { audio := audioAt 9, sent := 4 }) none 10
     let l : Letter := { letter0 with phase := .reviewing, cursor := 10 }
     Current s 7 4 l ∧ l.phase = .reviewing ∧ l.cursor = l.length ∧ EntryGood (s.upsets []) 7 st0 ∧
      EntryWrong ((wrong s).upsets []) 7 ∧ Current (wrong s) 7 4 l) ∧
    (letter0.list[0]? = some (.speech [.loc 10, .loc 11, .placeholder]) ∧ letter0.list[1]? = some (.silence 5) ∧
      letter0.list[2]? = some (.gap .overrun) ∧ (inReview none none).mem.ctrl ≠ .failed) := by
  refine ⟨?_, ?_, ?_, ?_, ?_, ?_⟩ <;> decide +kernel

/-- A device whose memory controller has these claims waiting and this access in progress. -/
def accessing (waiting : List Access) (granted : Option Access) (s : State := holding letter0) : State :=
  { s with mem := { s.mem with waiting := waiting, granted := granted } }

/-- A Player's claim. -/
def wanted (n : Nat) : Access := { claim := .playerRead 7 true { number := 612, chan := 7, pos := 3 }, loc := n }

/-- Block memory being initialized, with retired locations. -/
def initializing (retired : List Nat) (n : Nat) : State :=
  { State.reset with mem := { State.reset.mem with retired := retired, waiting := [], granted := some { claim := .initWrite, loc := n } } }

theorem witness_ArbiterInitAndPatrol :
    (let s := accessing [{ claim := .patrolRead, loc := 3 }, wanted 10, wanted 11] none
     s.mem.granted = none ∧ s.mem.waiting = [{ claim := .patrolRead, loc := 3 }] ++ wanted 10 :: [wanted 11] ∧
      (∀ x ∈ [({ claim := .patrolRead, loc := 3 } : Access)], (wanted 10).claim.rank < x.claim.rank) ∧
      (∀ x ∈ [wanted 11], (wanted 10).claim.rank ≤ x.claim.rank)) ∧
    (let s := initializing [6, 7] 5
     Memory.wf s.mem.cells = true ∧ s.mem.granted = some { claim := .initWrite, loc := 5 } ∧
      (∀ x, 5 < x → x < 8 → x ∈ s.mem.retired) ∧ 8 < nLocations ∧ 8 ∉ s.mem.retired) ∧
    (let s := initializing [262143] 262142
     s.mem.granted = some { claim := .initWrite, loc := 262142 } ∧ (∀ x, 262142 < x → x < 262144 → x ∈ s.mem.retired) ∧
      262144 = nLocations ∧ ∀ x ∈ s.mem.retired, x < nLocations) ∧
    (let s := holding letter0
     let at10 := { s with mem := { s.mem with patrolPtr := 10 } }
     let atEnd := { s with mem := { s.mem with patrolPtr := 262143 } }
     s.mem.ctrl = .ready ∧ s.mgmt.patrolOn = true ∧ s.mem.granted = none ∧ s.mem.waiting = [] ∧
      at10.mem.status 10 = .allocated false ∧ atEnd.mem.status 262143 ≠ .allocated false) := by
  refine ⟨by decide +kernel, ⟨by decide +kernel, by decide +kernel, ?_, by decide +kernel, by decide +kernel⟩,
    ⟨by decide +kernel, ?_, by decide +kernel, by decide +kernel⟩, by decide +kernel⟩
  · intro x h1 h2; have : x = 6 ∨ x = 7 := by omega
    rcases this with rfl | rfl <;> decide +kernel
  · intro x h1 h2; have : x = 262143 := by omega
    subst this; decide +kernel

/-- A block the Coder has coded. -/
def coded : CodedBlock := { p0 := 5, k0 := 6, w := 4, cond := { Conditions.clear with sat := true, clip := true }, code := List.replicate 128 3 }

/-- The Coder's write to location 10 is in progress, for channel 7's CAPTURING take. -/
def writing : State :=
  let s := accessing [] (some { claim := .coderWrite, loc := 10 })
  { s with coder := { s.coder with write := some { chan := 7, serial := 255, loc := 10, block := coded } }
           capture := s.capture.set 7 { s.capture[7] with state := .capturing }
           mem := { s.mem with held := [{ loc := 10, releasing := false, writing := true }] } }

theorem witness_AccessTimeoutFailsTheController :
    writing.mem.granted = some { claim := .coderWrite, loc := 10 } ∧
    writing.coder.write = some { chan := 7, serial := 255, loc := 10, block := coded } ∧ writing.mem.status 10 = .allocated true := by
  decide +kernel

/-- The patrol reads location 10, which has been handed back meanwhile and holds these errors. -/
def releasing (errs : List BitError) : State :=
  let s := accessing [] (some { claim := .patrolRead, loc := 10 })
  { s with mem := { s.mem with
      cells := Memory.write s.mem.cells 10 { block := coded, errs := errs }
      held := [{ loc := 11, releasing := false, writing := false }, { loc := 10, releasing := true, writing := false }] } }

theorem witness_PlayerAndPatrolReadsComplete :
    (∀ play ∈ [some { audio := audioAt 3, sent := 1 }, none], ∀ pace ∈ [true, false],
     let s := accessing [] (some (wanted 10)) (inReview play (some (.obtaining 4)) 3 (some (1, 1)) pace)
     Memory.wf s.mem.cells = true ∧ s.mem.granted = some (wanted 10) ∧
      s.player[(7 : Chan)].review = some
        { letter := 4, play := play, next := some (.obtaining 4), walk := some (1, 1), pace := pace, late := !pace } ∧
      s.letters[(4 : LetterIx)] = some { letter0 with phase := .reviewing } ∧
      (s.upsets []).profiles[letter0.slot].status ≠ .damaged ∧ (s.upsets []).profiles[letter0.slot].parityOk = true) ∧
    (let s := accessing [] (some (wanted 10)) (inReview none (some (.obtaining 4)))
     ((slot2 .damaged s).upsets []).profiles[letter0.slot].status = .damaged ∧
      (s.upsets [.profile 2 prof]).profiles[letter0.slot].status ≠ .damaged ∧
      (s.upsets [.profile 2 prof]).profiles[letter0.slot].parityOk = false) ∧
    (let a : Access := { claim := .playerRead 7 false { number := 612, chan := 7, pos := 3 }, loc := 10 }
     (accessing [] (some a)).mem.granted = some a) ∧
    (accessing [] (some { claim := .patrolRead, loc := 10 })).mem.granted = some { claim := .patrolRead, loc := 10 } ∧
    (Memory.wf (releasing []).mem.cells = true ∧ (releasing []).mem.status 10 = .releasing ∧ (releasing []).mem.status 11 = .allocated false ∧
      (readGood (releasing []) 10).mem.free = [(13, 262131), (10, 1)] ∧
      (readCorrected (releasing [bit 3 7]) 10 none [bit 3 7]).mem.retired = [10]) ∧
    (ReadDelivers (releasing []) 10 none [] (readGood (releasing []) 10) ∧
      ReadDelivers (releasing [bit 3 7]) 10 none [bit 4 7] (readCorrected (releasing [bit 3 7]) 10 none [bit 3 7, bit 4 7]) ∧
      ReadFails (releasing [bit 3 7]) 10 [bit 3 8] (readUncorrectable (releasing [bit 3 7]) 10 [bit 3 7, bit 3 8])) :=
  ⟨by decide +kernel, by decide +kernel, by decide +kernel, by decide +kernel, by decide +kernel, .inl ⟨by decide +kernel, rfl⟩,
    .inr ⟨by decide +kernel, by decide +kernel, by decide +kernel⟩, ⟨⟨3, by decide +kernel⟩, by decide +kernel⟩⟩

/-! ### What passes between the blocks -/

/-- The Coder has reported on channel 7. -/
def reported (r : CoderReport) (s : State) : State := { s with wires := { s.wires with reports := s.wires.reports.set 7 [r] } }

/-- The letter of `inPhase (.recording take0)` with a max duration that the take has just reached. -/
def brimful : Letter := { letter0 with phase := .recording { take0 with mode := .insert }, maxDur := 12 }

theorem witness_BlockOutcomesJoinTheTake :
    (∀ p ∈ [Phase.recording take0, .finishing take0],
      let s := reported (.outcome 255 .silent) (inPhase p)
      s.wires.reports[(7 : Chan)].head? = some (.outcome 255 .silent) ∧ Current s 7 4 { letter0 with phase := p } ∧
        take0.serial = 255 ∧ max letter0.length (take0.start + take0.len + 1) ≤ letter0.maxDur) ∧
    (let s := reported (.outcome 255 .silent) (holding brimful)
     Current s 7 4 brimful ∧ brimful.maxDur < brimful.length + 2 + 1) ∧
    (∀ p ∈ [Phase.recording take0, .finishing take0],
      let s := noRecord (reported (.outcome 255 (.coded 12)) (inPhase p))
      Current s 7 4 { letter0 with phase := p } ∧ drawsRecord take0.list (.coded 12) = true ∧ s.freeSegs ≤ s.reserve) ∧
    (∀ o ∈ [BlockOutcome.coded 10, .silent],
      (reported (.outcome 254 o) base).wires.reports[(7 : Chan)].head? = some (.outcome 254 o)) ∧
    (∀ i l t, Current (reported (.outcome 254 .silent) base) 7 i l → l.phase.take? = some t → t.serial ≠ 254) := by
  have h : (reported (.outcome 254 .silent) base).ctxs[(7 : Chan)].current = none := by decide +kernel
  exact ⟨by decide +kernel, by decide +kernel, by decide +kernel, by decide +kernel, fun i l t hc => nomatch h.symm.trans hc.1⟩

theorem witness_EndOfTakeCommitsTheTake :
    (∀ t ∈ [take0, { take0 with closeAtCommit := true }, { take0 with stopOwed := true }],
      let s := reported (.endOfTake 255) (inPhase (.finishing t))
      s.wires.reports[(7 : Chan)].head? = some (.endOfTake t.serial) ∧ Current s 7 4 { letter0 with phase := .finishing t } ∧
        0 < s.freeSegs ∧ s.ctxs[(7 : Chan)].held = none ∧ ¬EntryWrong (s.upsets []) 7 ∧ EntryWrong ((wrong s).upsets []) 7 ∧
        Current (wrong s) 7 4 { letter0 with phase := .finishing t }) ∧
    (let s := reported (.endOfTake 255) (inPhase (.finishing take0))
     let s' := { s with ctxs := s.ctxs.set 7 { s.ctxs[7] with held := some { code := 0x05, count := 1 } } }
     s'.ctxs[(7 : Chan)].held = some { code := 0x05, count := 1 } ∧ Current s' 7 4 { letter0 with phase := .finishing take0 }) := by
  decide +kernel

/-- `beforeHunt` with notices from the device waiting. -/
def noticed (n : DeviceNotice) (s : State) : State := { s with wires := { s.wires with takeStops := [n], reviewStops := [n] } }

theorem witness_ForceStopsAndStoppedReviews :
    (∀ p ∈ [Phase.recording take0, .finishing take0, .finishing (takeStopped take0 .memory)],
      let s := reported (.memoryStop 255) (inPhase p)
      s.wires.reports[(7 : Chan)].head? = some (.memoryStop 255) ∧ Current s 7 4 { letter0 with phase := p }) ∧
    (let s := reported (.memoryStop 255) base
     s.wires.reports[(7 : Chan)].head? = some (.memoryStop 255) ∧ s.ctxs[(7 : Chan)].current = none) ∧
    (let s := noticed (.profile 2) (slot2 .damaged beforeHunt)
     s.profiles[(2 : Slot)].status = .damaged ∧ s.wires.takeStops.head? = some (.profile 2) ∧ s.wires.reviewStops.head? = some (.profile 2) ∧
      Current s 7 4 { letter0 with phase := .recording take0 } ∧ Current s 9 6 { letter0 with number := 614, phase := .finishing take0 } ∧
      letter0.slot = 2) ∧
    (let s := noticed .failed (ctrl .failed beforeHunt)
     s.mem.ctrl = .failed ∧ s.wires.takeStops.head? = some .failed ∧ s.wires.reviewStops.head? = some .failed ∧
      Current s 8 5 { letter0 with number := 613, phase := .reviewing } ∧
      (∀ ch : Chan, (s.upsets []).table[ch].damaged = true ∨ (s.upsets []).table[ch].inForce.parityOk = true) ∧
      ∀ a b : Chan, s.ctxs[a].current = s.ctxs[b].current → s.ctxs[a].current ≠ none → a = b) := by
  refine ⟨?_, ?_, ?_, ?_⟩ <;> decide +kernel

/-- A conversion is asked for, or answered. -/
def converting (reqs : List Nat) (answers : List (Nat × Option ReadContext)) (s : State) : State :=
  { s with wires := { s.wires with convRequests := reqs, convAnswers := answers } }

theorem witness_ConversionOfAHandle :
    (let s := converting [11] [] (holding letter0)
     s.wires.convRequests = [11] ∧ s.letters[(4 : LetterIx)] = some letter0 ∧ letter0.phase.take? = none ∧
      letter0.list = [] ++ .speech ([.loc 10] ++ .loc 11 :: [.placeholder]) :: [.silence 5, .gap .overrun, .speech [.loc 12]] ∧
      11 ∉ listLocs ([] ++ .speech ([.loc 10] ++ [.placeholder]) :: [.silence 5, .gap .overrun, .speech [.loc 12]]) ∧
      s.mem.status 11 = .allocated false ∧ (passedToRetired s 11).mem.retired = [11] ∧ (passedToRetired s 11).mem.status 11 = .retired ∧
      ∀ j : LetterIx, j ≠ 4 → s.letters[j] = none) ∧
    (∀ p ∈ [Phase.recording, .finishing],
      let t : Take := { take0 with list := [.silence 2, .speech [.loc 20, .loc 21]] }
      let s := converting [21] [] (inPhase (p t))
      s.wires.convRequests = [21] ∧ s.letters[(4 : LetterIx)] = some { letter0 with phase := p t } ∧ 21 ∉ listLocs letter0.list ∧
        t.list = [.silence 2] ++ .speech ([.loc 20] ++ .loc 21 :: []) :: [] ∧ 11 ∉ listLocs t.list ∧
        ∀ j : LetterIx, j ≠ 4 → s.letters[j] = none) ∧
    ((converting [262143] [] base).wires.convRequests = [262143] ∧ ∀ j : LetterIx, (converting [262143] [] base).letters[j] = none) ∧
    (let s := converting [] [(11, some { number := 612, chan := 7, pos := 1 })] (holding letter0)
     s.wires.convAnswers = [(11, some { number := 612, chan := 7, pos := 1 })] ∧ s.mem.status 11 = .allocated false) ∧
    (converting [] [(11, none)] base).wires.convAnswers = [(11, none)] := by
  refine ⟨?_, ?_, ?_, ?_, ?_⟩
  · decide +kernel
  · intro p hp
    simp only [List.mem_cons, List.not_mem_nil, or_false] at hp
    obtain rfl | rfl := hp <;> decide +kernel
  all_goals decide +kernel

/-- Channel 7's entry with a pending copy, and a notice that its letter is live no more. -/
def staged (parityOk : Bool) (s : State := base) : State :=
  { s with table := s.table.set 7 { s.table[7] with pendingCopy := some { settings := { st0 with minutes := 240 }, parityOk := parityOk } }
           wires := { s.wires with noLive := s.wires.noLive.set 7 1 } }

theorem witness_DetectionsAndPendingCopies :
    (let c := found .uncorrected (.location 5)
     let s := { base with wires := { base.wires with detections := [found .tableParity (.profileSlot 3), c] } }
     s.wires.detections = [found .tableParity (.profileSlot 3)] ++ c :: [] ∧ Detector.made .memory c = true ∧
      ∀ x ∈ [found .tableParity (.profileSlot 3)], Detector.made .memory x = false) ∧
    (∀ b ∈ [true, false], 0 < (staged b).wires.noLive[(7 : Chan)] ∧ ((staged b).upsets []).table[(7 : Chan)].pendingCopy =
      some { settings := { st0 with minutes := 240 }, parityOk := b }) ∧
    (((staged false).upsets []).table[(7 : Chan)].damaged = false ∧ (staged false).currentLetter 7 = none ∧
      ((staged false (spoilt base)).upsets []).table[(7 : Chan)].damaged = true ∧
      Current (staged false (inPhase (.recording take0))) 7 4 { letter0 with phase := .recording take0 }) ∧
    (let s := { base with wires := { base.wires with noLive := base.wires.noLive.set 7 1 } }
     0 < s.wires.noLive[(7 : Chan)] ∧ (s.upsets []).table[(7 : Chan)].pendingCopy = none) := by
  refine ⟨?_, ?_, ?_, ?_⟩ <;> decide +kernel

theorem witness_CaptureEnds :
    (let s := requested .finishing (capturing ring448 none)
     s.wires.captureRequests[(7 : Chan)] = [.finishing] ∧ s.capture[(7 : Chan)].state = .capturing ∧
      s.capture[(7 : Chan)].ring = [.block loudBlock false false] ++ [.block (quiet ++ quiet ++ quiet) false false] ∧
      (quiet ++ quiet ++ quiet).length < 256) ∧
    (let s := requested .finishing (capturing [] none)
     s.capture[(7 : Chan)].state = .capturing ∧ s.capture[(7 : Chan)].ring = [] ∧ s.coder.write = none) ∧
    (∀ e ∈ [RingEntry.block loudBlock false false, .gap .overrun 1],
      (requested .finishing (capturing [e] none)).capture[(7 : Chan)].ring = [] ++ [e] ∧ e.serviceable = true) ∧
    (let w : CodedWrite := { chan := 7, serial := base.coder.chans[(7 : Chan)].serial, loc := 10, block := coded }
     let s := requested .finishing { capturing [] none with coder := { base.coder with write := some w } }
     s.capture[(7 : Chan)].ring = [] ∧ s.coder.write = some w ∧ w.chan = 7 ∧ w.serial = s.coder.chans[(7 : Chan)].serial) ∧
    (∀ q ∈ [CaptureRequest.finishingDiscard, .cancelled], (requested q base).wires.captureRequests[(7 : Chan)] = [q] ∧
      (requested q base).capture[(7 : Chan)].state = .idle) ∧
    (requested .finishing base).capture[(7 : Chan)].state ≠ .capturing ∧
    (let s := requested .finishingDiscard (capturing ring448 none)
     s.wires.captureRequests[(7 : Chan)] = [.finishingDiscard] ∧ s.capture[(7 : Chan)].state ≠ .idle ∧ s.coder.write = none) ∧
    (requested .cancelled (capturing ring448 none)).wires.captureRequests[(7 : Chan)] = [.cancelled] := by decide +kernel

/-! ### The Coder -/

/-- Channel 7's ring is the one that holds something the Coder can take. -/
def serving (e : RingEntry) (d : Talk) (s : State := base) (state : CaptureState := .capturing) (withheld : Bool := false) : State :=
  { s with capture := s.capture.set 7 { ring := [e], state := state, expected := none }
           coder := { s.coder with
             chans := s.coder.chans.set 7 { s.coder.chans[7] with slot := 2, number := 612, detector := d, withheld := withheld } } }

theorem witness_CoderServesTheNextChannel :
    (∀ state ∈ [CaptureState.capturing, .finishing], ∀ s ∈ [serving (.gap .overrun 65535) .talk base state,
        serving (.block loudBlock false false) .talk base state, serving (.block loudBlock false false) (.hang 2) (ctrl .failed base) state,
        serving (.block (List.replicate 256 499) false true) .quiet base state,
        noLocation (serving (.block loudBlock false false) .talk base state),
        serving (.block loudBlock false false) .talk (slot2 .damaged base) state,
        serving (.block loudBlock false false) .talk base state true],
      s.coder.write = none ∧ s.capture[(7 : Chan)].ring.tail = [] ∧ s.capture[(7 : Chan)].ring ≠ [] ∧ s.coderReady 7 = true ∧
        (∀ c : Chan, s.coderReady c = true → cyclicDist s.coder.ptr 7 ≤ cyclicDist s.coder.ptr c)) ∧
    (let s := serving (.block loudBlock false false) .talk
     s.coder.chans[(7 : Chan)].withheld = false ∧ (s.upsets []).profiles[s.coder.chans[(7 : Chan)].slot].status ≠ .damaged ∧
      (s.upsets []).profiles[s.coder.chans[(7 : Chan)].slot].parityOk = true ∧
      (s.upsets [.profile 2 prof]).profiles[s.coder.chans[(7 : Chan)].slot].status ≠ .damaged ∧
      (s.upsets [.profile 2 prof]).profiles[s.coder.chans[(7 : Chan)].slot].parityOk = false ∧ s.mem.ctrl = .ready ∧
      s.mem.free = [(0, 262143 + 1)]) ∧
    (energy (List.replicate 256 499) < prof.tLeave ∧ prof.tEnter ≤ energy loudBlock ∧ prof.tLeave ≤ energy loudBlock ∧
      energy (List.replicate 256 10) < prof.tEnter ∧ 0 < prof.hang ∧ ({ prof with hang := 0 } : Profile).hang = 0 ∧ 1 < prof.hang) ∧
    (noLocation (serving (.block loudBlock false false) .talk)).mem.free = [] ∧ (ctrl .failed base).mem.ctrl = .failed := by
  refine ⟨?_, ?_, ?_, ?_, ?_⟩ <;> decide +kernel

theorem witness_CoderWriteReportsTheBlock :
    Memory.wf writing.mem.cells = true ∧ writing.coder.write = some { chan := 7, serial := 255, loc := 10, block := coded } ∧
    writing.mem.granted = some { claim := .coderWrite, loc := 10 } ∧ writing.mgmt.chanCounters[(7 : Chan)].satBlocks ≤ max32 ∧
    writing.mgmt.chanCounters[(7 : Chan)].clipBlocks ≤ max32 := by decide +kernel

/-! ### The drain -/

/-- A ROUTINE letter of channel 7 in the drain, with an URGENT one queued behind it. -/
def overtaken (d : Option Delivery) (p : Phase) : State :=
  let s := inPhase p
  { s with letters := s.letters.set 5 (some { letter0 with number := 613, cls := .urgent, phase := .queued 8 })
           drain := { s.drain with issue := [4, 5], delivery := d } }

theorem witness_DeliveriesStartAndGiveWay :
    (let s := overtaken none (.queued 2)
     s.drainMayAct = true ∧ s.drain.delivery = none ∧ s.drain.suspended = none ∧ (s.classOf .urgent).head? = some 5 ∧
      s.letters[(5 : LetterIx)] = some { letter0 with number := 613, cls := .urgent, phase := .queued 8 }) ∧
    (let s := { inPhase (.queued 2) with drain := { base.drain with issue := [4] } }
     s.drainMayAct = true ∧ s.classOf .urgent = [] ∧ (s.classOf .routine).head? = some 4) ∧
    (base.drainMayAct = true ∧ base.classOf .urgent = [] ∧ base.classOf .routine = []) ∧
    (∀ next ∈ [NextRecord.head, .body, .ending],
      let s := overtaken (some (delivery next 0 2)) (.draining 2)
      s.drainMayAct = true ∧ s.drain.delivery = some (delivery next 0 2) ∧ s.drain.suspended = none ∧ s.drain.forming = none ∧
        (delivery next 0 2).abort = false ∧ s.letters[(4 : LetterIx)] = some { letter0 with phase := .draining 2 } ∧
        letter0.cls = .routine ∧ (s.classOf .urgent).head? = some 5) := by
  refine ⟨?_, ?_, ?_, ?_⟩ <;> decide +kernel

/-- A delivery of the letter at index 4 stands at a record boundary. -/
def draining (d : Delivery) : State :=
  let s := inPhase (.draining 2)
  { s with drain := { s.drain with issue := [4], delivery := some d } }

/-- An urgent letter of channel 7 is delivered while another is SUSPENDED. -/
def urgentFirst (d : Delivery) : State :=
  let s := overtaken (some { d with letter := 5, number := 613 }) (.suspended 2)
  { s with letters := s.letters.set 5 (some { letter0 with number := 613, cls := .urgent, phase := .draining 8 })
           drain := { s.drain with suspended := some (delivery .resume 1 0) } }

theorem witness_DrainRecordsAreHandedInOrder :
    (∀ d ∈ [delivery .head 0 0, delivery .resume 3 0, delivery .resume 4 0, delivery .body 1 0, delivery .body 2 0, delivery .body 0 2,
        delivery .body 3 0],
      let s := draining d
      s.drain.delivery = some d ∧ s.letters[d.letter] = some { letter0 with phase := .draining 2 } ∧ s.drainMayAct = true ∧
        s.pool.slot = none ∧ s.drain.forming = none ∧ d.abort = false ∧ s.drain.suspended = none ∧ s.suspensionDue d = false) ∧
    (let s := urgentFirst (delivery .body 1 0)
     s.drainMayAct = true ∧ s.pool.slot = none ∧ (∀ x ∈ s.drain.suspended, x.abort = false) ∧
      s.suspensionDue { delivery .body 1 0 with letter := 5, number := 613 } = false) ∧
    (letter0.list ≠ [] ∧ 3 < letter0.list.length ∧ letter0.list.length ≤ 4 ∧ letter0.list[1]? = some (.silence 5) ∧
      letter0.list[2]? = some (.gap .overrun) ∧ letter0.list[0]? = some (.speech [.loc 10, .loc 11, .placeholder]) ∧
      letter0.list[3]? = some (.speech [.loc 12])) ∧
    (let l := { letter0 with list := [.gap .sequence], phase := .draining 2 }
     let s := { holding l with drain := { base.drain with issue := [4], delivery := some (delivery .body 0 0) } }
     s.drainMayAct = true ∧ s.letters[(4 : LetterIx)] = some l ∧ l.list[0]? = some (.gap .sequence) ∧
      s.suspensionDue (delivery .body 0 0) = false) ∧
    (let s := draining (delivery .body 3 0)
     let a : Access := { claim := .drainRead { number := 612, chan := 7, pos := 9 }, loc := 12 }
     let s' := { s with drain := { s.drain with forming := some 9, hold := true }, mem := { s.mem with granted := some a } }
     s'.drain.forming ≠ none ∧ s'.mem.granted = some a ∧ Memory.wf s'.mem.cells = true ∧ errorsAt s' 12 [] = [] ∧
      s'.drainMayAct = false) := by
  refine ⟨?_, ?_, ?_, ?_, ?_⟩ <;> decide +kernel

/-- The same with an abort of the SUSPENDED letter pending. -/
def suspendedAborted : State :=
  let s := urgentFirst (delivery .body 0 0)
  { s with drain := { s.drain with suspended := some { delivery .resume 1 0 with abort := true } } }

theorem witness_DeliveriesEnd :
    (∀ d ∈ [delivery .ending 4 0, { delivery .abandon 1 0 with abort := true }, { delivery .head 0 0 with abort := true },
        { delivery .body 1 0 with abort := true }],
      let s := draining d
      s.drainMayAct = true ∧ s.drain.forming = none ∧ s.letters[d.letter] = some { letter0 with phase := .draining 2 } ∧
        s.drain.delivery = some d ∧ s.drain.suspended = none ∧ s.pool.slot = none) ∧
    (let d := { delivery .ending 4 0 with letter := 5, number := 613 }
     let s := urgentFirst (delivery .ending 4 0)
     s.drain.delivery = some d ∧ d.next = .ending ∧ d.abort = false ∧ (∀ x ∈ s.drain.suspended, x.abort = false) ∧
      (nextDelivery { s with drain := { s.drain with delivery := none } }).drain.delivery = some (delivery .resume 1 0)) ∧
    (let d := { delivery .resume 1 0 with abort := true }
     let s := suspendedAborted
     s.drainMayAct = true ∧ s.drain.forming = none ∧ s.letters[d.letter] = some { letter0 with phase := .suspended 2 } ∧
      s.drain.suspended = some d ∧ s.drain.delivery = some { delivery .body 0 0 with letter := 5, number := 613 } ∧ s.pool.slot = none ∧
      (nextDelivery { s with drain := { s.drain with delivery := none } }).drain.delivery = some { d with next := .abandon }) := by
  refine ⟨?_, ?_, ?_⟩ <;> decide +kernel

end Sys2Proof.Tests
end

section
/-! The end of a take at Capture and at the Coder: the end-of-take report, the requests to a channel's ring and the completion of the Coder's
write (R71, R77, R78, R84, R85). -/

namespace Sys2Proof.CaptureAndCoder

open Sys2Proof Sys2Proof.Machine

/-! ### The end-of-take report (R85) -/

/-- A write in progress belongs to the channel's take where it carries the channel and the take's serial. -/
theorem writingFor_iff (s : State) (ch : Chan) :
    s.writingFor ch = true ↔ ∃ w, s.coder.write = some w ∧ w.chan = ch ∧ w.serial = s.coder.chans[ch].serial := by
  unfold State.writingFor
  cases s.coder.write <;> simp

/-- The check where no write of the take is in progress: the take of a FINISHING channel with an empty ring ends, its channel becomes IDLE and
the report goes out, and nothing else changes. -/
theorem endOfTakeCheck_eq (s : State) (ch : Chan) (hwrite : s.writingFor ch = false) :
    let ends := decide (s.capture[ch].state = .finishing) && s.capture[ch].ring.isEmpty
    s.endOfTakeCheck ch = { s with
      capture := s.capture.set ch { s.capture[ch] with state := if ends then .idle else s.capture[ch].state }
      wires := { s.wires with
        reports := s.wires.reports.set ch
          (s.wires.reports[ch] ++ (if ends then [.endOfTake s.coder.chans[ch].serial] else [])) } } := by
  intro ends
  unfold State.endOfTakeCheck
  by_cases h : s.capture[ch].state = .finishing ∧ s.capture[ch].ring = []
  · have hends : ends = true := by simpa [ends] using h
    rw [if_pos ⟨h.1, h.2, hwrite⟩, hends]
    rfl
  · have hends : ends = false := by simpa [ends] using h
    have hcapture : s.capture.set ch { s.capture[ch] with state := s.capture[ch].state } = s.capture := Vector.set_getElem_self ..
    have hreports : s.wires.reports.set ch (s.wires.reports[ch] ++ []) = s.wires.reports := by simp
    rw [if_neg (fun ⟨hstate, hring, _⟩ => h ⟨hstate, hring⟩), hends]
    simp only [Bool.false_eq_true, if_false]
    rw [hcapture, hreports]

/-- A take that has not ended yet: the channel is in another state, its ring holds something, or a write of the take is in progress. -/
theorem endOfTakeCheck_waits (s : State) (ch : Chan)
    (h : s.capture[ch].state ≠ .finishing ∨ s.capture[ch].ring ≠ [] ∨ s.writingFor ch = true) : s.endOfTakeCheck ch = s := by
  unfold State.endOfTakeCheck
  rw [if_neg]
  rintro ⟨hstate, hring, hwrite⟩
  simp_all

/-! ### The completion of the Coder's write (R84) -/

/-- A 32-bit counter that counts nothing stays (R178). -/
theorem satAdd_zero {n : Nat} (h : n ≤ max32) : satAdd n 0 = n := by
  simp [satAdd, h]

/-- The counters of a channel after a coded block (R84): the condition counters rise where the block has the condition. -/
theorem codedCounters_eq (c : ChanCounters) (cond : Conditions) (hsat : c.satBlocks ≤ max32) (hclip : c.clipBlocks ≤ max32) :
    ChanCounters.addCoded 1 (ChanCounters.addSat cond.sat.toNat (ChanCounters.addClip cond.clip.toNat c)) = { c with
      coded := satAdd c.coded 1
      satBlocks := if cond.sat then satAdd c.satBlocks 1 else c.satBlocks
      clipBlocks := if cond.clip then satAdd c.clipBlocks 1 else c.clipBlocks } := by
  obtain ⟨sat, clip, filled, padded⟩ := cond
  cases sat <;> cases clip <;>
    simp [ChanCounters.addCoded, ChanCounters.addSat, ChanCounters.addClip, satAdd_zero, hsat, hclip]

/-- The whole device after the Coder's write has completed (R84, R85). -/
theorem writeDone_eq (s : State) (w : CodedWrite) :
    let ends := decide (s.capture[w.chan].state = .finishing) && s.capture[w.chan].ring.isEmpty
    s.writeDone w = { s with
      mem := { s.mem with
        granted := none
        cells := Memory.write s.mem.cells w.loc { block := w.block, errs := [] }
        held := s.mem.held.map (fun h => if h.loc = w.loc then { h with writing := false } else h) }
      mgmt := { s.mgmt with chanCounters := upd s.mgmt.chanCounters w.chan (fun c =>
        ChanCounters.addCoded 1 (ChanCounters.addSat w.block.cond.sat.toNat (ChanCounters.addClip w.block.cond.clip.toNat c))) }
      coder := { s.coder with write := none }
      capture := s.capture.set w.chan { s.capture[w.chan] with state := if ends then .idle else s.capture[w.chan].state }
      wires := { s.wires with
        reports := s.wires.reports.set w.chan (s.wires.reports[w.chan] ++ [.outcome w.serial (.coded w.loc)] ++
          (if ends then [.endOfTake s.coder.chans[w.chan].serial] else [])) } } := by
  intro ends
  have hreports (r : Vector (List CoderReport) 48) (o : CoderReport) (tail : List CoderReport) :
      (upd r w.chan (fun q => q ++ [o])).set w.chan ((upd r w.chan (fun q => q ++ [o]))[w.chan] ++ tail) =
        r.set w.chan (r[w.chan] ++ [o] ++ tail) := by simp [upd]
  refine (endOfTakeCheck_eq _ w.chan rfl).trans ?_
  simp only [State.report, State.modWires_wires]
  rw [hreports]
  rfl

/-- Settles O57: the state after the write is known whole, and a read of the location finds what was written. -/
theorem coderWriteReportsTheBlock : Obligations.CoderWriteReportsTheBlock := by
  unfold Obligations.CoderWriteReportsTheBlock
  intro s w n hcells hwrite hgranted hsat hclip ends
  have hexec : exec .coderWriteComplete s = .next (s.writeDone w) := by
    show execCoderWriteComplete s = _
    simp [execCoderWriteComplete, hgranted, hwrite]
  have hread (m : Nat) := Memory.read_write s.mem.cells w.loc m { block := w.block, errs := [] } 0 hcells
  have hcount := codedCounters_eq s.mgmt.chanCounters[w.chan] w.block.cond hsat hclip
  refine ⟨_, hexec, ?_⟩
  rw [writeDone_eq]
  refine ⟨?_, ?_, rfl, ?_, ?_, rfl⟩
  · exact (hread w.loc).trans (if_pos rfl)
  · intro m hm
    exact (hread m).trans (if_neg hm)
  · exact (upd_same ..).trans hcount
  · intro c hc
    exact upd_ne _ _ hc

/-! ### The requests to a channel's ring (R71, R77, R78) -/

/-- A partial block at the end is padded to 256 samples (R77). -/
theorem padRing_partial (whole : List RingEntry) (ys : List Sample) (f p : Bool) (h : ys.length < 256) :
    padRing (whole ++ [.block ys f p]) = whole ++ [.block (ys ++ List.replicate (256 - ys.length) 0) f true] := by
  induction whole with
  | nil => simp [padRing, blockSamples, h]
  | cons e rest ih =>
    rw [List.cons_append, padRing, ih, List.cons_append]
    all_goals simp

/-- A ring that ends in a whole block or a gap entry holds no partial block to pad (R77). -/
theorem padRing_serviceable (front : List RingEntry) (e : RingEntry) (h : e.serviceable = true) :
    padRing (front ++ [e]) = front ++ [e] := by
  induction front with
  | nil =>
    cases e with
    | block xs f p =>
      have hlen : blockSamples ≤ xs.length := by simpa [RingEntry.serviceable] using h
      simp [padRing, hlen]
    | gap c n => simp [padRing]
  | cons a rest ih =>
    rw [List.cons_append, padRing, ih]
    simp

/-- The oldest request to a channel's ring leaves. -/
theorem popCapture_eq (s : State) (ch : Chan) (q : CaptureRequest) (rest : List CaptureRequest)
    (h : s.wires.captureRequests[ch] = q :: rest) :
    s.popCapture ch = { s with wires := { s.wires with captureRequests := s.wires.captureRequests.set ch rest } } := by
  have htail : upd s.wires.captureRequests ch List.tail = s.wires.captureRequests.set ch rest :=
    congrArg (fun qs : List CaptureRequest => s.wires.captureRequests.set ch qs.tail) h
  rw [State.popCapture, State.modWires, htail]

/-- A channel that finishes with its ring empty and no write of its take in progress ends its take at once (R85). -/
theorem emptied_ends (s : State) (ch : Chan) (hwrite : s.writingFor ch = false) :
    (s.modCapture ch (fun c => { c with state := .finishing, ring := [] })).endOfTakeCheck ch = { s with
      capture := s.capture.set ch { s.capture[ch] with state := .idle, ring := [] }
      wires := { s.wires with
        reports := s.wires.reports.set ch (s.wires.reports[ch] ++ [.endOfTake s.coder.chans[ch].serial]) } } := by
  refine (endOfTakeCheck_eq (s.modCapture ch _) ch hwrite).trans ?_
  simp [upd]

/-- A channel that finishes with its ring empty waits for the write of its take that is in progress (R85). -/
theorem emptied_waits (s : State) (ch : Chan) (hwrite : s.writingFor ch = true) :
    (s.modCapture ch (fun c => { c with state := .finishing, ring := [] })).endOfTakeCheck ch =
      { s with capture := s.capture.set ch { s.capture[ch] with state := .finishing, ring := [] } } :=
  endOfTakeCheck_waits _ ch (.inr (.inr hwrite))

/-- A CAPTURING channel whose ring holds something after the padding finishes, and its take goes on (R77, R85). -/
theorem finishCapture_holding (s : State) (ch : Chan) (ring : List RingEntry) (hstate : s.capture[ch].state = .capturing)
    (hring : padRing s.capture[ch].ring = ring) (hne : ring ≠ []) :
    s.finishCapture ch = { s with capture := s.capture.set ch { s.capture[ch] with state := .finishing, ring := ring } } := by
  subst hring
  unfold State.finishCapture
  rw [if_pos hstate]
  refine (endOfTakeCheck_waits _ ch (.inr (.inl ?_))).trans rfl
  simpa using hne

/-- A CAPTURING channel with an empty ring finishes with it empty (R77). -/
theorem finishCapture_empty (s : State) (ch : Chan) (hstate : s.capture[ch].state = .capturing) (hring : s.capture[ch].ring = []) :
    s.finishCapture ch = (s.modCapture ch (fun c => { c with state := .finishing, ring := [] })).endOfTakeCheck ch := by
  have hupd : upd s.capture ch (fun c => { c with state := .finishing, ring := padRing c.ring }) =
      upd s.capture ch (fun c => { c with state := .finishing, ring := [] }) :=
    congrArg (fun ring => s.capture.set ch { s.capture[ch] with state := .finishing, ring := ring }) (congrArg padRing hring)
  rw [State.finishCapture, if_pos hstate, State.modCapture, hupd]
  rfl

/-- Settles O55: one case for each request, and under it one for each state of the channel. -/
theorem captureEnds : Obligations.CaptureEnds := by
  unfold Obligations.CaptureEnds
  intro s ch q rest hq wires x serial writing ended finishing lost stray
  let u : State := { s with wires := wires }
  have hpop : s.popCapture ch = u := popCapture_eq s ch q rest hq
  have hwriting : s.writingFor ch = true ↔ writing := writingFor_iff s ch
  have hfree (h : ¬writing) : s.writingFor ch = false := Bool.eq_false_iff.mpr (mt hwriting.mp h)
  refine ⟨fun hfinishing => ?_, fun hdiscard => ?_, fun hcancel => ?_⟩
  · have hexec : exec (.takeFinishing ch) s = .next (u.finishCapture ch) := by
      show execTakeFinishing ch s = _
      rw [execTakeFinishing, hq, hpop, hfinishing]
      rfl
    rw [hexec]
    refine ⟨fun hstate => ⟨fun whole ys f p hring hys => ?_, fun front e hring he => ?_, fun hring => ⟨fun h => ?_, fun h => ?_⟩⟩,
      fun hstate => ?_⟩
    · exact congrArg _ (finishCapture_holding u ch _ hstate ((congrArg padRing hring).trans (padRing_partial whole ys f p hys)) (by simp))
    · exact congrArg _ (finishCapture_holding u ch _ hstate
        ((congrArg padRing hring).trans ((padRing_serviceable front e he).trans hring.symm)) (by simp [hring]))
    · exact congrArg _ ((finishCapture_empty u ch hstate hring).trans (emptied_ends u ch (hfree h)))
    · exact congrArg _ ((finishCapture_empty u ch hstate hring).trans (emptied_waits u ch (hwriting.mpr h)))
    · exact congrArg _ (if_neg hstate)
  · have hexec : exec (.ringEmptying ch) s = .next (u.discardCapture ch) := by
      show execRingEmptying ch s = _
      rw [execRingEmptying, hq, hpop, hdiscard]
      rfl
    have hlost : strayOf x.ring = lost := by
      refine congrArg List.sum (List.map_congr_left fun e _ => ?_)
      cases e with
      | block xs f p => rfl
      | gap c n => simp [RingEntry.room]
    rw [hexec]
    refine ⟨fun hstate => ?_, fun hstate => congrArg _ (if_pos hstate)⟩
    let v : State := { u with mgmt := stray }
    have hcount : u.count ch (ChanCounters.addStray (strayOf x.ring)) = v :=
      congrArg (fun n => u.count ch (ChanCounters.addStray n)) hlost
    have hcounted : u.discardCapture ch = (v.modCapture ch (fun c => { c with state := .finishing, ring := [] })).endOfTakeCheck ch :=
      (if_neg hstate).trans (congrArg (fun t => (State.modCapture t ch _).endOfTakeCheck ch) hcount)
    rw [hcounted]
    exact ⟨fun h => congrArg _ (emptied_ends v ch (hfree h)), fun h => congrArg _ (emptied_waits v ch (hwriting.mpr h))⟩
  · have hexec : exec (.ringEmptying ch) s = .next (u.cancelCapture ch) := by
      show execRingEmptying ch s = _
      rw [execRingEmptying, hq, hpop, hcancel]
      rfl
    rw [hexec]
    exact ⟨fun hstate => congrArg _ (if_pos hstate), fun hstate => congrArg _ (if_neg hstate)⟩

end Sys2Proof.CaptureAndCoder
end

section
/-! The controller enters FAILED (R84, R117, R131, R132): locations are placed one after another, the Coder's write is abandoned, and
everything else stays. -/

namespace Sys2Proof.CaptureAndCoder

open Sys2Proof Sys2Proof.Machine

/-! ### The placing of locations (R125, R126) -/

/-- From the first state to the second, held locations may have been placed on the free or the retired list and counted; nothing else has
changed. -/
structure Placed (s t : State) : Prop where
  frame : t = { s with mem := t.mem, mgmt := t.mgmt }
  mem : t.mem = { s.mem with free := t.mem.free, held := t.mem.held, retired := t.mem.retired }
  held : t.mem.held ⊆ s.mem.held
  retired : s.mem.retired <+: t.mem.retired
  chanCounters : t.mgmt.chanCounters = s.mgmt.chanCounters

theorem Placed.refl (s : State) : Placed s s := ⟨rfl, rfl, fun _ h => h, List.prefix_rfl, rfl⟩

theorem Placed.trans {s t u : State} (h : Placed s t) (k : Placed t u) : Placed s u where
  frame := by rw [k.frame, h.frame]
  mem := by rw [k.mem, h.mem]
  held := fun _ hx => h.held (k.held hx)
  retired := h.retired.trans k.retired
  chanCounters := k.chanCounters.trans h.chanCounters

/-- A location that is placed is held no more. -/
theorem placeLoc_held (s : State) (n : Nat) : (s.placeLoc n).mem.held = s.mem.held.filter (fun h => h.loc != n) := by
  unfold State.placeLoc
  dsimp only
  split <;> rfl

theorem placeLoc_placed (s : State) (n : Nat) : Placed s (s.placeLoc n) where
  frame := placeLoc_frame s n
  mem := by unfold State.placeLoc; dsimp only; split <;> rfl
  held := by rw [placeLoc_held]; exact List.filter_subset_self ..
  retired := by
    unfold State.placeLoc
    dsimp only
    split
    · exact List.prefix_append ..
    · exact List.prefix_rfl
  chanCounters := by unfold State.placeLoc; dsimp only; split <;> rfl

theorem placeAll_placed (s : State) (ns : List Nat) : Placed s (ns.foldl State.placeLoc s) := by
  induction ns generalizing s with
  | nil => exact Placed.refl s
  | cons n rest ih => exact (placeLoc_placed s n).trans (ih _)

/-- Locations that are placed one after another are all held no more. -/
theorem placeAll_held (s : State) (ns : List Nat) : ∀ h ∈ (ns.foldl State.placeLoc s).mem.held, h ∈ s.mem.held ∧ h.loc ∉ ns := by
  induction ns generalizing s with
  | nil => exact fun h hh => ⟨hh, by simp⟩
  | cons n rest ih =>
    intro h hh
    obtain ⟨hheld, hrest⟩ := ih _ h hh
    rw [placeLoc_held, List.mem_filter] at hheld
    obtain ⟨hheld, hn⟩ := hheld
    exact ⟨hheld, by simp_all⟩

/-- With every RELEASING location placed, none is held as RELEASING. -/
theorem placeReleasing_held (s : State) : ∀ h ∈ (s.mem.releasing.foldl State.placeLoc s).mem.held, h.releasing = false := by
  intro h hh
  obtain ⟨hheld, hloc⟩ := placeAll_held s _ h hh
  by_contra hr
  refine hloc (List.mem_map.mpr ⟨h, List.mem_filter.mpr ⟨hheld, ?_⟩, rfl⟩)
  simpa using hr

/-! ### A controller without an access in progress -/

/-- With no access in progress or waiting, an ALLOCATED location that is handed back is placed at once (R125). -/
theorem handBack_allocated (s : State) (n : Nat) (writing : Bool) (hg : s.mem.granted = none) (hw : s.mem.waiting = [])
    (h : s.mem.status n = .allocated writing) : s.handBack n = s.placeLoc n := by
  have hreads : s.mem.readsOf n = 0 := by simp [BlockMemory.readsOf, hg, hw]
  simp [State.handBack, h, hreads]

theorem handBack_placed (s : State) (n : Nat) (hg : s.mem.granted = none) (hw : s.mem.waiting = []) : Placed s (s.handBack n) := by
  cases h : s.mem.status n with
  | allocated writing => rw [handBack_allocated s n writing hg hw h]; exact placeLoc_placed s n
  | _ => rw [State.handBack, h]; exact Placed.refl s

/-- With no write in progress the check of a take's end changes at most the capture states and the reports (R85). -/
theorem endOfTakeCheck_unwritten (s : State) (ch : Chan) (h : s.coder.write = none) :
    ∃ (capture : Vector Capture 48) (reports : Vector (List CoderReport) 48),
      s.endOfTakeCheck ch = { s with capture := capture, wires := { s.wires with reports := reports } } :=
  ⟨_, _, endOfTakeCheck_eq s ch (by rw [State.writingFor, h])⟩

/-- The whole device after the Coder's write, if there is one, has been abandoned with no access in progress (R84): its location is handed
back, four counts of stray audio are made, and the take it belongs to may end. -/
theorem abandonWrite_spec (s : State) (hg : s.mem.granted = none) (hw : s.mem.waiting = []) :
    ∃ (u : State) (counters : Vector ChanCounters 48) (capture : Vector Capture 48) (reports : Vector (List CoderReport) 48),
      Placed s u ∧
      s.abandonWrite = { u with
        mgmt := { u.mgmt with chanCounters := counters }
        coder := { s.coder with write := none }
        capture := capture
        wires := { s.wires with reports := reports } } ∧
      ∀ w, s.coder.write = some w →
        counters[w.chan].stray = satAdd s.mgmt.chanCounters[w.chan].stray 4 ∧
        (s.mem.status w.loc = .allocated true → ∀ h ∈ u.mem.held, h.loc ≠ w.loc) := by
  cases hwrite : s.coder.write with
  | none =>
    refine ⟨s, s.mgmt.chanCounters, s.capture, s.wires.reports, Placed.refl s, ?_, by simp⟩
    have hcoder : { s.coder with write := none } = s.coder := by rw [← hwrite]
    simp [State.abandonWrite, hwrite, hcoder]
  | some w =>
    have hplaced := handBack_placed s w.loc hg hw
    let counted := (s.handBack w.loc).count w.chan (ChanCounters.addStray 4)
    obtain ⟨capture, reports, hend⟩ := endOfTakeCheck_unwritten { counted with coder := { counted.coder with write := none } } w.chan rfl
    refine ⟨s.handBack w.loc, upd s.mgmt.chanCounters w.chan (ChanCounters.addStray 4), capture, reports, hplaced, ?_, ?_⟩
    · rw [State.abandonWrite, hwrite]
      refine hend.trans ?_
      simp only [counted, State.count, hplaced.chanCounters]
      rw [hplaced.frame]
    · rintro _ ⟨⟩
      refine ⟨congrArg ChanCounters.stray (upd_same ..), fun hstatus h hh => ?_⟩
      rw [handBack_allocated s w.loc true hg hw hstatus, placeLoc_held, List.mem_filter] at hh
      simpa using hh.2

/-! ### The entry into FAILED (R131, R132) -/

/-- The device with its controller FAILED and no access in progress or waiting, before anything else is done (R131). -/
def accessesDropped (s : State) : State := s.modMem (fun m => { m with ctrl := .failed, waiting := [], granted := none })

/-- The device after its RELEASING locations have been placed (R132). -/
def releasingPlaced (s : State) : State := s.mem.releasing.foldl State.placeLoc s

/-- The entry into FAILED: the accesses are dropped, the write is abandoned, the RELEASING locations are placed, and then the detection and
the two stops go out and the Drain Engine awaits no read. -/
theorem enterFailed_eq (s : State) (a : Access) :
    let t := releasingPlaced (accessesDropped s).abandonWrite
    s.enterFailed a = { t with
      drain := { t.drain with forming := none }
      wires := { t.wires with
        detections := t.wires.detections ++
          [{ kind := .noResponse, place := .location a.loc, number := none, chan := none, pos := none }]
        takeStops := t.wires.takeStops ++ [.failed]
        reviewStops := t.wires.reviewStops ++ [.failed] } } := rfl

/-- Settles O48: the state after the dropped accesses, the abandoned write and the placed locations is known field by field. -/
theorem accessTimeoutFailsTheController : Obligations.AccessTimeoutFailsTheController := by
  unfold Obligations.AccessTimeoutFailsTheController
  intro s a hgranted
  have hexec : exec .accessTimeout s = .next (s.enterFailed a) := by
    show execAccessTimeout s = _
    rw [execAccessTimeout, hgranted]
  obtain ⟨u, counters, capture, reports, hu, habandon, hwrite⟩ := abandonWrite_spec (accessesDropped s) rfl rfl
  have hp : Placed (accessesDropped s).abandonWrite (releasingPlaced _) := placeAll_placed ..
  have hreleasing : ∀ h ∈ (releasingPlaced (accessesDropped s).abandonWrite).mem.held, h.releasing = false := placeReleasing_held _
  have hfailed := enterFailed_eq s a
  rw [habandon] at hp hreleasing hfailed
  generalize releasingPlaced _ = t at hp hreleasing hfailed
  have hmem : t.mem = { s.mem with
      ctrl := .failed, waiting := [], granted := none, free := t.mem.free, held := t.mem.held, retired := t.mem.retired } := by
    rw [hp.mem]
    dsimp only
    rw [hu.mem]
    rfl
  have ht : t = { s with
      mem := t.mem, mgmt := t.mgmt, coder := { s.coder with write := none }, capture := capture,
      wires := { s.wires with reports := reports } } := by
    rw [hp.frame, hu.frame]
    rfl
  rw [ht] at hfailed
  refine ⟨_, hexec, ?_⟩
  rw [hfailed]
  refine ⟨by rw [hmem], by rw [hmem], by rw [hmem], hreleasing, by rw [hmem], hu.retired.trans hp.retired, rfl, rfl, rfl, ?_, rfl, rfl, rfl,
    rfl, rfl, rfl, rfl, rfl, rfl, rfl, rfl⟩
  intro w hw
  obtain ⟨hstray, hloc⟩ := hwrite w hw
  exact ⟨(congrArg (fun v => v[w.chan].stray) hp.chanCounters).trans hstray, fun hstatus h hh => hloc hstatus h (hp.held hh)⟩

end Sys2Proof.CaptureAndCoder
end

section
/-! The classification of a delivered AUDIO frame (R72, R146 to R150): where it is dropped, stray, forwarded or handed to Capture. -/

namespace Sys2Proof.CaptureAndCoder

open Sys2Proof Sys2Proof.Machine

/-! ### The state in which a good frame has been taken -/

/-- The receiver's taking of a good station frame, after errors have arisen in the tables, changes the tables and the receiver. -/
theorem goodTaken_frame (s : State) (us : List Upset) :
    goodTaken s us .station = { s with
      table := (s.upsets us).table
      profiles := (s.upsets us).profiles
      station := { s.station with rx := { s.station.rx with badRun := 0, seeking := false } } } := by
  rw [goodTaken, upsets_frame]
  rfl

@[simp] theorem goodTaken_table (s : State) (us : List Upset) : (goodTaken s us .station).table = (s.upsets us).table := rfl
@[simp] theorem goodTaken_pool (s : State) (us : List Upset) : (goodTaken s us .station).pool = s.pool := by rw [goodTaken_frame]
@[simp] theorem goodTaken_mem (s : State) (us : List Upset) : (goodTaken s us .station).mem = s.mem := by rw [goodTaken_frame]
@[simp] theorem goodTaken_mgmt (s : State) (us : List Upset) : (goodTaken s us .station).mgmt = s.mgmt := by rw [goodTaken_frame]
@[simp] theorem goodTaken_capture (s : State) (us : List Upset) : (goodTaken s us .station).capture = s.capture := by
  rw [goodTaken_frame]

/-! ### Channel numbers (R146) -/

theorem chanOfByte_chan {b : Byte} {ch : Chan} (h : b.toNat = ch.val) : chanOfByte b = some ch := by
  simp [chanOfByte, h]

theorem chanOfByte_bad {b : Byte} (h : 48 ≤ b.toNat) : chanOfByte b = none := by
  simp [chanOfByte, h]

/-! ### The branches of the Frame Classifier (R146, R147) -/

section
variable (s : State) (b : Byte) (seq : Word16) (xs : List Sample) {ch : Chan}

theorem classifyAudio_init (h : s.mem.ctrl = .init) : s.classifyAudio b seq xs = s := if_pos h

theorem classifyAudio_badChannel (h : s.mem.ctrl ≠ .init) (hb : 48 ≤ b.toNat) :
    s.classifyAudio b seq xs = s.countPart (PartCounters.addBadChannel 1) := by
  rw [State.classifyAudio, if_neg h, chanOfByte_bad hb]

/-- A frame whose read delivers no settings is stray (R147). -/
theorem classifyAudio_unread (t : State) (h : s.mem.ctrl ≠ .init) (hb : b.toNat = ch.val) (hread : s.readEntry ch = (t, none)) :
    s.classifyAudio b seq xs = t.count ch (ChanCounters.addStray 1) := by
  rw [State.classifyAudio, if_neg h, chanOfByte_chan hb]
  dsimp only
  rw [hread]

/-- A frame of a channel with a GOOD entry goes where the mode of the entry says: to the channel's ring, unless the controller is FAILED, to
the bypass queue, or nowhere (R147, R150). -/
theorem classifyAudio_good {st : Settings} (h : s.mem.ctrl ≠ .init) (hb : b.toNat = ch.val) (hgood : EntryGood s ch st) :
    (st.mode = .compress → s.classifyAudio b seq xs =
      if s.mem.ctrl = .ready then s.captureFrame ch seq xs else s.count ch (ChanCounters.addStray 1)) ∧
    (st.mode = .bypass →
      s.classifyAudio b seq xs = s.forward { chan := ch, isKey := false, payload := audioPayload seq xs }) ∧
    (st.mode = .blocked → s.classifyAudio b seq xs = s.count ch (ChanCounters.addStray 1)) := by
  rw [State.classifyAudio, if_neg h, chanOfByte_chan hb]
  dsimp only
  rw [readEntry_good s ch st hgood.1 hgood.2]
  dsimp only
  exact ⟨fun hmode => by rw [hmode], fun hmode => by rw [hmode], fun hmode => by rw [hmode]⟩

end

/-- An AUDIO frame that arrives whole at a listening receiver is classified (R146, R156). -/
theorem exec_audio (s : State) (b : Byte) (seq : Word16) (xs : List Sample) (us : List Upset) (hs : Listening s .station)
    (hxs : xs.length = 64) : exec (.audio b seq xs us) s = .next ((goodTaken s us .station).classifyAudio b seq xs) :=
  execAudio_delivered s b seq xs us hs hxs

/-- Outside CAPTURING a frame that reaches a channel's ring is stray (R72). -/
theorem captureFrame_stray (s : State) (ch : Chan) (seq : Word16) (xs : List Sample) (h : s.capture[ch].state ≠ .capturing) :
    s.captureFrame ch seq xs = s.count ch (ChanCounters.addStray 1) := if_pos h

/-- Settles O18: one branch of the Frame Classifier for each clause. -/
theorem audioDroppedStrayOrForwarded : Obligations.AudioDroppedStrayOrForwarded := by
  unfold Obligations.AudioDroppedStrayOrForwarded
  intro s b seq xs us hs hxs u
  rw [exec_audio s b seq xs us hs hxs]
  have hmem : u.mem = s.mem := goodTaken_mem s us
  have hpool : u.pool = s.pool := goodTaken_pool s us
  have hcapture : u.capture = s.capture := goodTaken_capture s us
  rw [← hmem, ← hpool, ← hcapture]
  refine ⟨fun h => ?_, fun h hb => ?_, fun ch h hb hdamaged => ?_, fun ch h hb hwrong => ?_, fun ch st h hb hgood => ?_⟩
  · exact congrArg _ (classifyAudio_init u b seq xs h)
  · exact congrArg _ (classifyAudio_badChannel u b seq xs h hb)
  · exact congrArg _ (classifyAudio_unread u b seq xs u h hb (readEntry_damaged u ch hdamaged))
  · rw [← damageEntry_eq]
    exact congrArg _ (classifyAudio_unread u b seq xs _ h hb (readEntry_bad u ch hwrong.1 hwrong.2))
  · obtain ⟨hcompress, hbypass, hblocked⟩ := classifyAudio_good u b seq xs h hb hgood
    refine ⟨?_, fun hmode hroom => ?_, fun hmode hfull => ?_⟩
    · rintro (hmode | ⟨hmode, hfailed | hstate⟩)
      · rw [hblocked hmode]
      · rw [hcompress hmode, if_neg (by simp [hfailed])]
      · rw [hcompress hmode, captureFrame_stray u ch seq xs hstate, ite_self]
    · rw [hbypass hmode, State.forward, if_pos hroom]
      rfl
    · rw [hbypass hmode, State.forward, if_neg (Nat.not_lt.mpr hfull)]

end Sys2Proof.CaptureAndCoder
end

section
/-! The capture ring under an audio frame (R70 to R76): the room that is made, the break that is marked, and the samples that join. -/

namespace Sys2Proof.CaptureAndCoder

open Sys2Proof Sys2Proof.Machine

/-! ### What a ring holds, of two rings one behind the other (R70) -/

@[simp] theorem ringRoom_append (r r' : List RingEntry) : ringRoom (r ++ r') = ringRoom r + ringRoom r' := by simp [ringRoom]

@[simp] theorem ringRoom_cons (e : RingEntry) (r : List RingEntry) : ringRoom (e :: r) = e.room + ringRoom r := by simp [ringRoom]

@[simp] theorem ringRoom_nil : ringRoom [] = 0 := rfl

@[simp] theorem ringGaps_append (r r' : List RingEntry) : ringGaps (r ++ r') = ringGaps r + ringGaps r' := by simp [ringGaps]

@[simp] theorem ringGaps_block (xs : List Sample) (f p : Bool) : ringGaps [.block xs f p] = 0 := rfl

@[simp] theorem ringSamples_append (r r' : List RingEntry) : ringSamples (r ++ r') = ringSamples r ++ ringSamples r' := by
  simp [ringSamples]

@[simp] theorem ringSamples_block (xs : List Sample) (f p : Bool) : ringSamples [.block xs f p] = xs := by simp [ringSamples]

/-! ### Room is made (R75) -/

/-- Behind a gap entry with another entry that is a gap behind it, the oldest block is looked for further on. -/
theorem dropOldest_behind_gap {c : GapCause} {n : Nat} {e : RingEntry} {r r' : List RingEntry} (he : e.isGap = true)
    (h : dropOldest (e :: r) = some r') : dropOldest (.gap c n :: e :: r) = some (.gap c n :: r') := by
  cases e with
  | block xs f p => simp [RingEntry.isGap] at he
  | gap c' n' => rw [dropOldest, h]; · rfl
                 · simp

/-- The oldest whole block behind an OVERRUN entry that can count one more. -/
theorem dropOldest_counted (before : List RingEntry) (n : Nat) (ys : List Sample) (f p : Bool) (rest : List RingEntry)
    (hgaps : ∀ g ∈ before, g.isGap = true) (hys : ys.length = 256) (hn : n < 65535) :
    dropOldest (before ++ .gap .overrun n :: .block ys f p :: rest) = some (before ++ .gap .overrun (n + 1) :: rest) := by
  induction before with
  | nil => simp [dropOldest, blockSamples, hys, max16, hn]
  | cons g more ih =>
    obtain ⟨hg, hmore⟩ := List.forall_mem_cons.mp hgaps
    cases g with
    | block xs f p => simp [RingEntry.isGap] at hg
    | gap c k =>
      have hrest := ih hmore
      cases more with
      | nil => exact dropOldest_behind_gap rfl hrest
      | cons e more => exact dropOldest_behind_gap (hmore e (by simp)) hrest

/-- The oldest whole block with nothing before it that can count one more. -/
theorem dropOldest_replaced (front : List RingEntry) (ys : List Sample) (f p : Bool) (rest : List RingEntry)
    (hgaps : ∀ g ∈ front, g.isGap = true) (hys : ys.length = 256)
    (hfull : ∀ before n, front = before ++ [.gap .overrun n] → 65535 ≤ n) :
    dropOldest (front ++ .block ys f p :: rest) = some (front ++ .gap .overrun 1 :: rest) := by
  induction front with
  | nil => simp [dropOldest, blockSamples, hys]
  | cons g more ih =>
    obtain ⟨hg, hmore⟩ := List.forall_mem_cons.mp hgaps
    cases g with
    | block xs f p => simp [RingEntry.isGap] at hg
    | gap c k =>
      cases more with
      | nil =>
        have hnot : ¬(c = .overrun ∧ k < max16) := by
          rintro ⟨rfl, hk⟩
          exact absurd (hfull [] k rfl) (by simpa [max16] using hk)
        simp [dropOldest, blockSamples, hys, hnot]
      | cons e more =>
        exact dropOldest_behind_gap (hmore e (by simp)) (ih hmore (fun before n h => hfull (.gap c k :: before) n (by rw [h]; rfl)))

theorem dropOldest_of_oldestDropped {r r' : List RingEntry} (h : OldestDropped r r') : dropOldest r = some r' := by
  obtain ⟨front, rest, ys, f, p, rfl, hgaps, hys, ⟨before, n, rfl, hn, rfl⟩ | ⟨hfull, rfl⟩⟩ := h
  · rw [List.append_assoc]
    exact dropOldest_counted before n ys f p rest (fun g hg => hgaps g (List.mem_append_left _ hg)) hys hn
  · exact dropOldest_replaced front ys f p rest hgaps hys hfull

/-- A drop gives room for one block (R75). -/
theorem ringRoom_of_oldestDropped {r r' : List RingEntry} (h : OldestDropped r r') : ringRoom r = ringRoom r' + 256 := by
  obtain ⟨front, rest, ys, f, p, rfl, hgaps, hys, ⟨before, n, rfl, hn, rfl⟩ | ⟨hfull, rfl⟩⟩ := h <;>
    simp [RingEntry.room, hys] <;> omega

/-- As many drops as room takes are found by the model's bounded search, whose bound a ring of 1,024 samples never reaches. -/
theorem makeRoom_of_roomMade {need n : Nat} {r r' : List RingEntry} (h : RoomMade need n r r') (fuel : Nat) (hn : n ≤ fuel) :
    makeRoom need fuel r = (r', n) := by
  induction n generalizing r fuel with
  | zero =>
    obtain ⟨hroom, rfl⟩ := h
    cases fuel with
    | zero => rfl
    | succ fuel => rw [makeRoom, if_pos hroom]
  | succ n ih =>
    obtain ⟨hroom, r1, hdrop, hrest⟩ := h
    obtain ⟨fuel, rfl⟩ : ∃ k, fuel = k + 1 := ⟨fuel - 1, by omega⟩
    rw [makeRoom, if_neg (by omega), dropOldest_of_oldestDropped hdrop]
    simp only [ih hrest fuel (by omega)]

theorem roomMade_count {need n : Nat} {r r' : List RingEntry} (h : RoomMade need n r r') : 256 * n ≤ ringRoom r := by
  induction n generalizing r with
  | zero => omega
  | succ n ih =>
    obtain ⟨_, r1, hdrop, hrest⟩ := h
    have := ih hrest
    have := ringRoom_of_oldestDropped hdrop
    omega

/-- The room that is made in a ring of no more than 1,024 samples (R75). -/
theorem makeRoom_eq {need n : Nat} {r r' : List RingEntry} (h : RoomMade need n r r') (hr : ringRoom r ≤ 1024) :
    makeRoom need 16 r = (r', n) :=
  makeRoom_of_roomMade h 16 (by have := roomMade_count h; omega)

/-! ### The break is marked (R74) -/

/-- A list of entries with a SEQUENCE gap entry at its end, or with 1 more in the count of its newest entry where that is a SEQUENCE gap entry
that can count it (R74). -/
def SequenceMarked (kept r : List RingEntry) : Prop :=
  (∃ before n, kept = before ++ [.gap .sequence n] ∧ n < 65535 ∧ r = before ++ [.gap .sequence (n + 1)]) ∨
  ((∀ before n, kept = before ++ [.gap .sequence n] → 65535 ≤ n) ∧ r = kept ++ [.gap .sequence 1])

theorem sequenceMarked_nil {r : List RingEntry} (h : SequenceMarked [] r) : r = [.gap .sequence 1] := by
  obtain ⟨before, n, h, _⟩ | ⟨_, rfl⟩ := h
  · simp at h
  · rfl

theorem sequenceMarked_block {xs : List Sample} {f p : Bool} {r : List RingEntry} (h : SequenceMarked [.block xs f p] r) :
    r = [.block xs f p, .gap .sequence 1] := by
  obtain ⟨before, n, h, _⟩ | ⟨_, rfl⟩ := h
  · simpa using congrArg List.getLast? h
  · rfl

theorem sequenceMarked_gap {c : GapCause} {n : Nat} {r : List RingEntry} (h : SequenceMarked [.gap c n] r) :
    r = if c = .sequence ∧ n < max16 then [.gap c (n + 1)] else [.gap c n, .gap .sequence 1] := by
  obtain ⟨before, k, h, hk, rfl⟩ | ⟨hfull, rfl⟩ := h
  · obtain ⟨rfl, hgap⟩ := List.append_inj' (s₁ := []) h rfl
    obtain ⟨rfl, rfl⟩ : c = .sequence ∧ n = k := by simpa using hgap
    simp [max16, hk]
  · rw [if_neg]
    · rfl
    · rintro ⟨rfl, hn⟩
      exact absurd (hfull [] n rfl) (by simpa [max16] using hn)

/-- The entry at the head of two or more is not looked at. -/
theorem sequenceMarked_cons {a b : RingEntry} {kept r : List RingEntry} (h : SequenceMarked (a :: b :: kept) r) :
    ∃ r', r = a :: r' ∧ SequenceMarked (b :: kept) r' := by
  obtain ⟨before, n, h, hn, rfl⟩ | ⟨hfull, rfl⟩ := h
  · cases before with
    | nil => simp at h
    | cons x before =>
      obtain ⟨rfl, htail⟩ := List.cons.inj h
      exact ⟨_, rfl, .inl ⟨before, n, htail, hn, rfl⟩⟩
  · exact ⟨_, rfl, .inr ⟨fun before n h => hfull (a :: before) n (by rw [h]; rfl), rfl⟩⟩

/-- The resync of a ring that ends in a partial block removes it and marks what is kept (R74). -/
theorem resyncRing_partial {ys : List Sample} {f p : Bool} (hys : ys.length < 256) :
    ∀ {kept r : List RingEntry}, SequenceMarked kept r → resyncRing (kept ++ [.block ys f p]) = r
  | [], _, h => by simp [resyncRing, blockSamples, hys, sequenceMarked_nil h]
  | [.block xs g q], _, h => by simp [resyncRing, blockSamples, hys, sequenceMarked_block h]
  | [.gap c n], _, h => by simp [resyncRing, blockSamples, hys, sequenceMarked_gap h]
  | a :: b :: kept, _, h => by
    obtain ⟨r', rfl, h'⟩ := sequenceMarked_cons h
    have ih := resyncRing_partial (f := f) (p := p) hys h'
    rw [← ih]
    simp only [List.cons_append]
    rw [resyncRing]
    all_goals simp

/-- The resync of a ring without a partial block at its end marks it (R74). -/
theorem resyncRing_whole : ∀ {kept r : List RingEntry},
    (∀ before ys f p, kept = before ++ [.block ys f p] → 256 ≤ ys.length) → SequenceMarked kept r → resyncRing kept = r
  | [], _, _, h => by simp [resyncRing, sequenceMarked_nil h]
  | [.block xs g q], _, hw, h => by
    have hlen : ¬xs.length < 256 := Nat.not_lt.mpr (hw [] xs g q rfl)
    simp [resyncRing, blockSamples, hlen, sequenceMarked_block h]
  | [.gap c n], _, _, h => by simp [resyncRing, sequenceMarked_gap h]
  | [a, .block xs g q], _, hw, h => by
    have hlen : ¬xs.length < 256 := Nat.not_lt.mpr (hw [a] xs g q rfl)
    obtain ⟨r', rfl, h'⟩ := sequenceMarked_cons h
    cases a <;> simp [resyncRing, blockSamples, hlen, sequenceMarked_block h']
  | [a, .gap c n], _, _, h => by
    obtain ⟨r', rfl, h'⟩ := sequenceMarked_cons h
    simp [resyncRing, sequenceMarked_gap h']
  | a :: b :: c :: kept, _, hw, h => by
    obtain ⟨r', rfl, h'⟩ := sequenceMarked_cons h
    have ih := resyncRing_whole (kept := b :: c :: kept) (fun before ys f p hb => hw (a :: before) ys f p (by rw [hb]; rfl)) h'
    rw [← ih, resyncRing]
    all_goals simp

theorem resyncRing_of_breakMarked {r r' : List RingEntry} (h : BreakMarked r r') : resyncRing r = r' := by
  obtain ⟨kept, ⟨ys, f, p, rfl, hys⟩ | ⟨rfl, hwhole⟩, hmarked⟩ := h
  · exact resyncRing_partial hys hmarked
  · exact resyncRing_whole hwhole hmarked

/-- The mark of a break takes no room (R70, R74). -/
theorem ringRoom_of_breakMarked {r r' : List RingEntry} (h : BreakMarked r r') : ringRoom r' ≤ ringRoom r := by
  obtain ⟨kept, ⟨ys, f, p, rfl, hys⟩ | ⟨rfl, hwhole⟩, ⟨before, n, rfl, hn, rfl⟩ | ⟨hfull, rfl⟩⟩ := h <;> simp [RingEntry.room]

end Sys2Proof.CaptureAndCoder
end

section
/-! The samples of an audio frame join the ring (R70 to R73), and what Capture then holds and counts (R72 to R76). -/

namespace Sys2Proof.CaptureAndCoder

open Sys2Proof Sys2Proof.Machine

/-! ### The samples of a frame join (R72, R73) -/

/-- Samples join the partial block at the end of a ring (R72). -/
theorem append64_partial (filled : Bool) (xs : List Sample) (whole : List RingEntry) (ys : List Sample) (f p : Bool)
    (hys : ys.length < 256) :
    append64 filled xs (whole ++ [.block ys f p]) = whole ++ [.block (ys ++ xs) (f || filled) p] := by
  induction whole with
  | nil => simp [append64, blockSamples, hys]
  | cons e rest ih =>
    rw [List.cons_append, append64, ih, List.cons_append]
    all_goals simp

/-- Samples begin a new block behind a ring without a partial block at its end (R72). -/
theorem append64_whole (filled : Bool) (xs : List Sample) (r : List RingEntry) (h : ∀ e ∈ r.getLast?, e.serviceable = true) :
    append64 filled xs r = r ++ [.block xs filled false] := by
  induction r with
  | nil => rfl
  | cons e rest ih =>
    cases rest with
    | nil =>
      cases e with
      | gap c n => rfl
      | block ys f p =>
        have hlen : ¬ys.length < blockSamples := by simpa [RingEntry.serviceable] using h
        simp [append64, hlen]
    | cons e' rest =>
      rw [append64, ih (by simpa using h), List.cons_append]
      all_goals simp

/-- A ring ends in a partial block, or what stands at its end, if anything, is whole (R70). -/
theorem partial_or_whole (r : List RingEntry) :
    (∃ whole ys f p, r = whole ++ [.block ys f p] ∧ ys.length < 256) ∨ ∀ e ∈ r.getLast?, e.serviceable = true := by
  obtain rfl | ⟨front, e, rfl⟩ := List.eq_nil_or_concat' r
  · exact .inr (by simp)
  · cases e with
    | gap c n => exact .inr (by simp [RingEntry.serviceable])
    | block ys f p =>
      by_cases h : ys.length < 256
      · exact .inl ⟨front, ys, f, p, rfl, h⟩
      · exact .inr (by simp [RingEntry.serviceable, blockSamples, Nat.not_lt.mp h])

/-- The samples that join stand behind those the ring holds, and no gap entry comes or goes. -/
theorem append64_holds (filled : Bool) (xs : List Sample) (r : List RingEntry) :
    ringSamples (append64 filled xs r) = ringSamples r ++ xs ∧ ringGaps (append64 filled xs r) = ringGaps r := by
  obtain ⟨whole, ys, f, p, rfl, hys⟩ | hwhole := partial_or_whole r
  · simp [append64_partial filled xs whole ys f p hys]
  · simp [append64_whole filled xs r hwhole]

/-- The same of a frame behind the zeros of the missing ones (R73). -/
theorem appendConcealed_holds (skip : Nat) (xs : List Sample) (r : List RingEntry) :
    ringSamples (appendConcealed skip xs r) = ringSamples r ++ List.replicate (64 * skip) 0 ++ xs ∧
    ringGaps (appendConcealed skip xs r) = ringGaps r := by
  induction skip generalizing r with
  | zero => simpa [appendConcealed] using append64_holds false xs r
  | succ k ih =>
    obtain ⟨hsamples, hgaps⟩ := append64_holds true (List.replicate frameSamples 0) r
    obtain ⟨ihs, ihg⟩ := ih (append64 true (List.replicate frameSamples 0) r)
    refine ⟨ihs.trans ?_, ihg.trans hgaps⟩
    rw [hsamples, List.append_assoc (ringSamples r), List.replicate_append_replicate, Nat.mul_succ, Nat.add_comm (64 * k)]
    rfl

/-! ### The blocks that a run of samples fills (R70, R72, R73) -/

@[simp] theorem filledBlocks_nil : filledBlocks [] = [] := rfl

/-- The first block takes 256 samples, and the others come behind it. -/
theorem filledBlocks_cons (zs : List (Sample × Bool)) (h : zs ≠ []) :
    filledBlocks zs =
      .block ((zs.take 256).map Prod.fst) ((zs.take 256).any Prod.snd) false :: filledBlocks (zs.drop 256) := by
  have hpos : 0 < zs.length := List.length_pos_iff.mpr h
  have hcount : (zs.length + 255) / 256 = ((zs.drop 256).length + 255) / 256 + 1 := by
    rw [List.length_drop]
    omega
  rw [filledBlocks, hcount, List.range_succ_eq_map, List.map_cons, List.map_map]
  simp only [filledBlocks, Function.comp_def, List.drop_drop, Nat.mul_succ, Nat.add_comm]
  rfl

/-- No more than 256 samples fill one block. -/
theorem filledBlocks_short (zs : List (Sample × Bool)) (h : zs ≠ []) (hlen : zs.length ≤ 256) :
    filledBlocks zs = [.block (zs.map Prod.fst) (zs.any Prod.snd) false] := by
  rw [filledBlocks_cons zs h, List.take_of_length_le hlen, List.drop_eq_nil_of_le hlen, filledBlocks_nil]

/-- Whole blocks are filled first, and what comes behind them fills blocks of its own. -/
theorem filledBlocks_append (k : Nat) (zs behind : List (Sample × Bool)) (h : zs.length = 256 * k) :
    filledBlocks (zs ++ behind) = filledBlocks zs ++ filledBlocks behind := by
  induction k generalizing zs with
  | zero => simp [List.length_eq_zero_iff.mp h]
  | succ k ih =>
    have hne : zs ≠ [] := List.length_pos_iff.mp (by omega)
    have hle : 256 ≤ zs.length := by omega
    rw [filledBlocks_cons zs hne, filledBlocks_cons (zs ++ behind) (by simp [hne]), List.take_append_of_le_length hle,
      List.drop_append_of_le_length hle, ih (zs.drop 256) (by rw [List.length_drop]; omega), List.cons_append]

/-- Samples in whole number of blocks fill whole blocks only. -/
theorem filledBlocks_serviceable (k : Nat) (zs : List (Sample × Bool)) (h : zs.length = 256 * k) :
    ∀ e ∈ filledBlocks zs, e.serviceable = true := by
  induction k generalizing zs with
  | zero => simp [List.length_eq_zero_iff.mp h]
  | succ k ih =>
    rw [filledBlocks_cons zs (List.length_pos_iff.mp (by omega)), List.forall_mem_cons]
    refine ⟨?_, ih (zs.drop 256) (by rw [List.length_drop]; omega)⟩
    simp [RingEntry.serviceable, blockSamples, h]

/-- The 64 samples of a frame fill up the blocks that stand behind whole entries: their last one, where it is partial, and else a new one. -/
theorem append64_filledBlocks (filled : Bool) (xs : List Sample) (whole : List RingEntry) (zs : List (Sample × Bool))
    (hxs : xs.length = 64) (hwhole : ∀ e ∈ whole, e.serviceable = true) (hzs : zs.length % 64 = 0) :
    append64 filled xs (whole ++ filledBlocks zs) = whole ++ filledBlocks (zs ++ xs.map (fun x => (x, filled))) := by
  obtain ⟨front, last, hsplit, k, hfront, hlast⟩ :
      ∃ front last, zs = front ++ last ∧ ∃ k, front.length = 256 * k ∧ last.length < 256 := by
    refine ⟨zs.take (256 * (zs.length / 256)), zs.drop (256 * (zs.length / 256)), (List.take_append_drop ..).symm,
      zs.length / 256, ?_, ?_⟩
    · rw [List.length_take]; omega
    · rw [List.length_drop]; omega
  subst hsplit
  have hnew : xs.map (fun x => (x, filled)) ≠ [] := by simpa using List.length_pos_iff.mp (by omega)
  have hmap : (xs.map (fun x => (x, filled))).map Prod.fst = xs := by simp [Function.comp_def]
  have hany : (xs.map (fun x => (x, filled))).any Prod.snd = filled := by
    cases xs with
    | nil => simp at hxs
    | cons x rest => cases filled <;> simp
  have hlen : last.length ≤ 192 := by
    rw [List.length_append] at hzs
    omega
  have hserviceable : ∀ e ∈ whole ++ filledBlocks front, e.serviceable = true :=
    List.forall_mem_append.mpr ⟨hwhole, filledBlocks_serviceable k front hfront⟩
  rw [List.append_assoc front, filledBlocks_append k front _ hfront, filledBlocks_append k front _ hfront]
  by_cases hnil : last = []
  · subst hnil
    rw [filledBlocks_nil, List.append_nil, List.nil_append, filledBlocks_short _ hnew (by simp [hxs]), hmap, hany, ← List.append_assoc]
    exact append64_whole filled xs _ (fun e he => hserviceable e (List.mem_of_getLast? he))
  · rw [filledBlocks_short last hnil (by omega), filledBlocks_short (last ++ _) (by simp [hnil]) (by simp [hxs]; omega), ← List.append_assoc,
      ← List.append_assoc, append64_partial filled xs _ _ _ _ (by simpa using hlast), List.map_append, List.any_append, hmap, hany]

/-- The zeros of the missing frames and the samples of the frame fill up the blocks that stand behind whole entries (R73). -/
theorem appendConcealed_filledBlocks (skip : Nat) (xs : List Sample) (whole : List RingEntry) (zs : List (Sample × Bool))
    (hxs : xs.length = 64) (hwhole : ∀ e ∈ whole, e.serviceable = true) (hzs : zs.length % 64 = 0) :
    appendConcealed skip xs (whole ++ filledBlocks zs) =
      whole ++ filledBlocks (zs ++ List.replicate (64 * skip) (0, true) ++ xs.map (fun x => (x, false))) := by
  induction skip generalizing zs with
  | zero => simpa [appendConcealed] using append64_filledBlocks false xs whole zs hxs hwhole hzs
  | succ k ih =>
    have hzeros := append64_filledBlocks true (List.replicate frameSamples 0) whole zs (by simp [frameSamples]) hwhole hzs
    rw [List.map_replicate] at hzeros
    have hrest := ih (zs ++ List.replicate frameSamples (0, true)) (by simp [frameSamples]; omega)
    rw [List.append_assoc zs, List.replicate_append_replicate] at hrest
    refine (congrArg _ hzeros).trans (hrest.trans ?_)
    rw [Nat.mul_succ, Nat.add_comm (64 * k)]
    rfl

end Sys2Proof.CaptureAndCoder
end

section
/-! A frame that reaches the ring of a CAPTURING channel: it is refused whole, or it enters and is counted (R72 to R76). -/

namespace Sys2Proof.CaptureAndCoder

open Sys2Proof Sys2Proof.Machine

/-! ### What Capture makes of a frame (R72, R76) -/

/-- The counters of a channel after a frame that has entered its ring, dropping blocks for room (R72 to R75). -/
def frameCounted (how : Entering) (dropped : Nat) (c : ChanCounters) : ChanCounters :=
  let c' := ChanCounters.addOverruns dropped (ChanCounters.addAccepted 1 c)
  match how with
  | .inLine => c'
  | .concealed skip => ChanCounters.addConcealed skip c'
  | .resync => ChanCounters.addResyncs 1 c'

section
variable (s : State) (ch : Chan) (seq : Word16) (xs : List Sample) {how : Entering} {r : List RingEntry} {n : Nat}

/-- A frame that would need a ninth gap entry is stray (R76). -/
theorem captureFrame_refused (hstate : s.capture[ch].state = .capturing) (hhow : enteringOf s.capture[ch].expected seq = how)
    (hring : ringAfter how xs s.capture[ch].ring = (r, n)) (hgaps : 8 < ringGaps r) :
    s.captureFrame ch seq xs = s.count ch (ChanCounters.addStray 1) := by
  rw [State.captureFrame, if_neg (not_not_intro hstate)]
  dsimp only
  rw [hhow, hring, if_pos hgaps]

/-- Any other frame enters: the ring is the one worked out, and the next number is expected (R72). -/
theorem captureFrame_entered (hstate : s.capture[ch].state = .capturing) (hhow : enteringOf s.capture[ch].expected seq = how)
    (hring : ringAfter how xs s.capture[ch].ring = (r, n)) (hgaps : ringGaps r ≤ 8) :
    s.captureFrame ch seq xs =
      (s.modCapture ch (fun c => { c with ring := r, expected := some (seq + 1) })).count ch (frameCounted how n) := by
  rw [State.captureFrame, if_neg (not_not_intro hstate)]
  dsimp only
  rw [hhow, hring, if_neg (Nat.not_lt.mpr hgaps)]
  cases how <;> simp only [State.count, State.modCapture, upd_upd] <;> rfl

end

/-- A delivered AUDIO frame reaches the ring of a channel: the controller is READY, the entry GOOD and COMPRESS, the channel
CAPTURING (R72, R147). -/
structure ReachesRing (s : State) (us : List Upset) (b : Byte) (xs : List Sample) (ch : Chan) : Prop where
  listening : Listening s .station
  samples : xs.length = 64
  chan : b.toNat = ch.val
  ready : s.mem.ctrl = .ready
  entry : ∃ st, EntryGood (s.upsets us) ch st ∧ st.mode = .compress
  capturing : s.capture[ch].state = .capturing

section
variable {s : State} {us : List Upset} {b : Byte} {xs : List Sample} {ch : Chan} (h : ReachesRing s us b xs ch) (seq : Word16)
  {how : Entering} {r : List RingEntry} {n : Nat} (hhow : enteringOf s.capture[ch].expected seq = how)
  (hring : ringAfter how xs s.capture[ch].ring = (r, n))
include h

theorem exec_audio_reaches :
    exec (.audio b seq xs us) s = .next ((goodTaken s us .station).captureFrame ch seq xs) := by
  obtain ⟨st, hgood, hmode⟩ := h.entry
  have hready : (goodTaken s us .station).mem.ctrl = .ready := by rw [goodTaken_mem, h.ready]
  obtain ⟨hcompress, -, -⟩ := classifyAudio_good (goodTaken s us .station) b seq xs (by rw [hready]; decide) h.chan hgood
  rw [exec_audio s b seq xs us h.listening h.samples, hcompress hmode, if_pos hready]

include hhow hring

theorem exec_audio_refused (hgaps : 8 < ringGaps r) :
    exec (.audio b seq xs us) s = .next ((goodTaken s us .station).count ch (ChanCounters.addStray 1)) := by
  rw [exec_audio_reaches h seq]
  rw [← goodTaken_capture s us] at hhow hring
  exact congrArg _ (captureFrame_refused _ ch seq xs (by rw [goodTaken_capture, h.capturing]) hhow hring hgaps)

theorem exec_audio_entered (hgaps : ringGaps r ≤ 8) :
    ∃ t, exec (.audio b seq xs us) s = .next t ∧
      t.capture[ch] = { s.capture[ch] with ring := r, expected := some (seq + 1) } ∧
      t.mgmt.chanCounters[ch] = frameCounted how n s.mgmt.chanCounters[ch] ∧
      (∀ c : Chan, c ≠ ch → t.capture[c] = s.capture[c] ∧ t.mgmt.chanCounters[c] = s.mgmt.chanCounters[c]) ∧
      t = { goodTaken s us .station with capture := t.capture, mgmt := { s.mgmt with chanCounters := t.mgmt.chanCounters } } := by
  have hexec := exec_audio_reaches h seq
  have hcapture := goodTaken_capture s us
  have hmgmt := goodTaken_mgmt s us
  rw [← hcapture] at hhow hring
  rw [captureFrame_entered _ ch seq xs (by rw [hcapture, h.capturing]) hhow hring hgaps] at hexec
  refine ⟨_, hexec, ?_⟩
  simp only [State.count_capture, State.modCapture_capture, State.count_mgmt, State.modCapture_mgmt, hcapture, hmgmt]
  refine ⟨upd_same .., upd_same .., fun c hc => ⟨upd_ne _ _ hc, upd_ne _ _ hc⟩, ?_⟩
  simp only [State.count, State.modCapture, hcapture, hmgmt]

end

/-! ### The two ways in: behind a skip of 0 to 8, and after a break (R72 to R75) -/

/-- The treatment of a skip of 0 to 8 (R72). -/
def skipEntering (skip : Nat) : Entering := if skip = 0 then .inLine else .concealed skip

theorem enteringOf_skip {expected : Option Word16} {seq : Word16} {skip : Nat}
    (h : expected = none ∧ skip = 0 ∨ ∃ e, expected = some e ∧ (seq - e).toNat = skip) (hskip : skip ≤ 8) :
    enteringOf expected seq = skipEntering skip := by
  obtain ⟨rfl, rfl⟩ | ⟨e, rfl, rfl⟩ := h
  · rfl
  · simp only [enteringOf, skipEntering, if_pos hskip]

theorem enteringOf_resync {e seq : Word16} (h : 8 < (seq - e).toNat) : enteringOf (some e) seq = .resync := by
  simp only [enteringOf]
  rw [if_neg (by omega), if_neg (by omega)]

theorem ringAfter_skip {skip n : Nat} {ring r : List RingEntry} (xs : List Sample) (hroom : RoomMade (64 * (skip + 1)) n ring r)
    (hring : ringRoom ring ≤ 1024) : ringAfter (skipEntering skip) xs ring = (appendConcealed skip xs r, n) := by
  have hmake := makeRoom_eq hroom hring
  by_cases hzero : skip = 0
  · subst hzero
    rw [skipEntering, if_pos rfl, ringAfter, show frameSamples = 64 * (0 + 1) from rfl, hmake]
    rfl
  · rw [skipEntering, if_neg hzero]
    simp only [ringAfter]
    rw [show (skip + 1) * frameSamples = 64 * (skip + 1) from Nat.mul_comm .., hmake]

theorem ringAfter_resync {n : Nat} {ring marked r : List RingEntry} (xs : List Sample) (hmarked : BreakMarked ring marked)
    (hroom : RoomMade 64 n marked r) (hring : ringRoom ring ≤ 1024) :
    ringAfter .resync xs ring = (r ++ [.block xs false false], n) := by
  have hmake := makeRoom_eq hroom ((ringRoom_of_breakMarked hmarked).trans hring)
  simp only [ringAfter, resyncRing_of_breakMarked hmarked]
  rw [show frameSamples = 64 from rfl, hmake]

/-- What a frame behind a skip of 0 to 8 counts (R72, R73, R75). -/
theorem frameCounted_skip (skip n : Nat) (c : ChanCounters) :
    let c' := frameCounted (skipEntering skip) n c
    c'.accepted = satAdd c.accepted 1 ∧ (0 < skip → c'.concealed = satAdd c.concealed skip) ∧
    c'.overruns = satAdd c.overruns n ∧ c'.resyncs = c.resyncs ∧ c'.stray = c.stray := by
  unfold skipEntering
  split
  · exact ⟨rfl, by omega, rfl, rfl, rfl⟩
  · exact ⟨rfl, fun _ => rfl, rfl, rfl, rfl⟩

/-- Settles O19: what stands behind the room that is made, or behind the mark of the break, is worked out for each of the two ways in. -/
theorem audioEntersTheRing : Obligations.AudioEntersTheRing := by
  unfold Obligations.AudioEntersTheRing
  refine ⟨?_, ?_⟩
  · intro s ch b seq xs us st skip n r hs hxs hb hready hgood hmode hstate hexpected hskip hring hroom
    have h : ReachesRing s us b xs ch := ⟨hs, hxs, hb, hready, ⟨st, hgood, hmode⟩, hstate⟩
    have hhow := enteringOf_skip hexpected hskip
    have hafter := ringAfter_skip xs hroom hring
    obtain ⟨hsamples, hgaps⟩ := appendConcealed_holds skip xs r
    refine ⟨fun hfull => exec_audio_refused h seq hhow hafter (hgaps ▸ hfull), fun hfew => ?_⟩
    obtain ⟨t, hexec, hcapture, hcounters, hothers, ht⟩ := exec_audio_entered h seq hhow hafter (hgaps ▸ hfew)
    obtain ⟨haccepted, hconcealed, hoverruns, hresyncs, hstray⟩ := frameCounted_skip skip n s.mgmt.chanCounters[ch]
    rw [← hcounters] at haccepted hconcealed hoverruns hresyncs hstray
    refine ⟨t, hexec, ?_, ?_, ?_, ?_, ?_, haccepted, hconcealed, fun _ => hoverruns, hresyncs, hstray, hothers, ht⟩
    all_goals rw [hcapture]
    · exact hsamples
    · exact hgaps
    · intro whole ys f hwhole hys hmod hr
      have hpartial : (if ys = [] then [] else [.block ys f false]) = filledBlocks (ys.map (fun y => (y, f))) := by
        by_cases hnil : ys = []
        · simp [hnil]
        · rw [if_neg hnil, filledBlocks_short _ (by simpa using hnil) (by simpa using hys.le)]
          obtain ⟨y, rest, rfl⟩ := List.exists_cons_of_ne_nil hnil
          cases f <;> simp [Function.comp_def]
      rw [hr, hpartial]
      exact appendConcealed_filledBlocks skip xs whole _ hxs hwhole (by simpa using hmod)
    · exact hstate
  · intro s ch b seq e xs us st n marked r hs hxs hb hready hgood hmode hstate hexpected hskip hring hmarked hroom
    have h : ReachesRing s us b xs ch := ⟨hs, hxs, hb, hready, ⟨st, hgood, hmode⟩, hstate⟩
    have hhow : enteringOf s.capture[ch].expected seq = .resync := by rw [hexpected, enteringOf_resync hskip]
    have hafter := ringAfter_resync xs hmarked hroom hring
    have hgaps : ringGaps (r ++ [.block xs false false]) = ringGaps r := by simp
    refine ⟨fun hfull => exec_audio_refused h seq hhow hafter (hgaps ▸ hfull), fun hfew => ?_⟩
    obtain ⟨t, hexec, hcapture, hcounters, hothers, ht⟩ := exec_audio_entered h seq hhow hafter (hgaps ▸ hfew)
    refine ⟨t, hexec, hcapture, ?_, ?_, fun _ => ?_, ?_, ?_, hothers, ht⟩ <;> rw [hcounters] <;> rfl

end Sys2Proof.CaptureAndCoder
end

section
/-! How a delivery starts and gives way (R98, R101, R103, R109), and where a write of INIT completes under a controller that is READY already
(R103, R122). -/

namespace Sys2Proof.DrainAndLinks

open Sys2Proof Sys2Proof.Machine

/-! ### A delivery begins (R103) -/

/-- The delivery of a QUEUED letter makes it DRAINING, with a delivery context at its head. -/
theorem deliveryBegun_queued {s : State} {i : LetterIx} {l : Letter} {ticket : Nat} (hl : s.letters[i] = some l)
    (hp : l.phase = .queued ticket) :
    deliveryBegun s i = { s with
      letters := s.letters.set i (some { l with phase := .draining ticket })
      drain := { s.drain with delivery := some (deliveryStart i l) } } := by
  rw [deliveryBegun, hl]
  dsimp only
  rw [hp]

/-- With no letter suspended the next delivery is that of the head of URGENT, or of ROUTINE where URGENT is empty (R108). -/
theorem nextDelivery_head {s : State} {i : LetterIx} (hs : s.drain.suspended = none)
    (hi : (s.classOf .urgent).head? = some i ∨ s.classOf .urgent = [] ∧ (s.classOf .routine).head? = some i) :
    nextDelivery s = deliveryBegun s i := by
  rcases hi with hu | ⟨hu, hr⟩
  · obtain ⟨rest, hu⟩ := List.head?_eq_some_iff.mp hu
    rw [nextDelivery, hu]
  · obtain ⟨rest, hr⟩ := List.head?_eq_some_iff.mp hr
    rw [nextDelivery, hu, hs, hr]

/-- With both classes empty and no letter suspended there is no next delivery (R108). -/
theorem nextDelivery_none {s : State} (hs : s.drain.suspended = none) (hu : s.classOf .urgent = []) (hr : s.classOf .routine = []) :
    nextDelivery s = s := by
  rw [nextDelivery, hu, hs, hr]

/-- A drain start is taken where nothing is delivered, nothing is suspended and the Drain Engine may act. -/
theorem drainStarted_next {s : State} (hm : s.drainMayAct = true) (hd : s.drain.delivery = none) (hs : s.drain.suspended = none) :
    drainStarted s = nextDelivery s := if_pos ⟨hm, hd, hs⟩

/-- No drain start is taken beside a delivery or a suspended letter. -/
theorem drainStarted_busy {s : State} (h : s.drain.delivery ≠ none ∨ s.drain.suspended ≠ none) : drainStarted s = s :=
  if_neg fun ⟨_, hd, hs⟩ => h.elim (absurd hd) (absurd hs)

/-! ### A delivery gives way (R109) -/

/-- The ROUTINE letter goes back to QUEUED where no record of it has been handed, and is SUSPENDED otherwise. -/
def gaveWay (s : State) (d : Delivery) (m : Letter) (ticket : Nat) : State :=
  if d.next = .head then { s with
    letters := s.letters.set d.letter (some { m with phase := .queued ticket })
    drain := { s.drain with delivery := none } }
  else { s with
    letters := s.letters.set d.letter (some { m with phase := .suspended ticket })
    drain := { s.drain with delivery := none, suspended := some { d with next := .resume } } }

/-- Where the switch can be taken, the letter gives way and the delivery of the head of URGENT begins. -/
theorem switched_taken {s : State} {d : Delivery} {i : LetterIx} {m : Letter} {ticket : Nat} (hm : s.drainMayAct = true)
    (hs : s.drain.suspended = none) (hf : s.drain.forming = none) (ha : d.abort = false) (hl : s.letters[d.letter] = some m)
    (hc : m.cls = .routine) (hp : m.phase = .draining ticket) (hu : (s.classOf .urgent).head? = some i) :
    switched s d = deliveryBegun (gaveWay s d m ticket) i := by
  obtain ⟨rest, hu⟩ := List.head?_eq_some_iff.mp hu
  rw [switched, hl, hu]
  dsimp only
  rw [hp]
  exact if_pos ⟨hm, hf, hc, ha, hs⟩

/-- The letter that gives way leaves every other letter as it is. -/
theorem gaveWay_letters_ne {s : State} {d : Delivery} {m : Letter} {ticket : Nat} {i : LetterIx} (h : d.letter ≠ i) :
    (gaveWay s d m ticket).letters[i] = s.letters[i] := by
  have h' : d.letter.val ≠ i.val := fun e => h (Fin.ext e)
  unfold gaveWay
  split <;> simp [Vector.getElem_set_ne, h']

/-- Settles O58: DRAIN_START is the drain start, and SUSPENSION the switch, that the Drain Engine's own events take. -/
theorem deliveriesStartAndGiveWay : Obligations.DeliveriesStartAndGiveWay := by
  unfold Obligations.DeliveriesStartAndGiveWay
  intro s hm
  have hstart : exec .drainStart s = .next (drainStarted s) := congrArg _ (takeDrainStart_eq s)
  rw [hstart]
  refine ⟨fun hd hs => ⟨fun i l ticket hi hl hp => ?_, fun hu hr => ?_⟩, fun h => ?_, ?_⟩
  · rw [drainStarted_next hm hd hs, nextDelivery_head hs hi, deliveryBegun_queued hl hp]
  · rw [drainStarted_next hm hd hs, nextDelivery_none hs hu hr]
  · rw [drainStarted_busy h]
  · intro d i l m ticket ticket' hd hs hf ha hlm hc hpm hu hl hp
    have hne : d.letter ≠ i := by
      rintro rfl
      obtain rfl : m = l := Option.some.inj (hlm.symm.trans hl)
      simp [hp] at hpm
    have hswitch : exec .suspension s = .next (deliveryBegun (gaveWay s d m ticket') i) :=
      congrArg _ ((takeSuspension_eq s d hd).trans (switched_taken hm hs hf ha hlm hc hpm hu))
    rw [hswitch, deliveryBegun_queued ((gaveWay_letters_ne hne).trans hl) hp]
    exact ⟨fun hn => by rw [gaveWay, if_neg hn], fun hn => by rw [gaveWay, if_pos hn]⟩

/-! ### A write of INIT under a READY controller -/

/-- A letter of the queue, with nothing recorded. -/
def queuedLetter : Letter :=
  { number := 1, chan := 0, author := 0, cls := .routine, slot := 0, generation := 0, w := 3, cap := 0, maxDur := 1, cursor := 0,
    list := [], phase := .queued 1 }

/-- A device in which a write of INIT has been granted though the controller is READY, and a letter waits for its drain start: no run reaches
it, but O47 takes every state with a granted write of INIT. -/
def lateInitWrite : State :=
  { State.reset with
    pool := { PoolPort.reset with rx := { Receiver.reset with sync := true } }
    letters := State.reset.letters.set 0 (some queuedLetter)
    drain := { Drain.reset with issue := [0] }
    mem := { BlockMemory.reset with ctrl := .ready, waiting := [], granted := some { claim := .initWrite, loc := 0 } } }

/-- The completion of that write goes on with location 1, and in its event the delivery of the letter begins. -/
theorem lateInitWrite_delivers :
    ∃ t, exec .initWriteComplete lateInitWrite = .next t ∧ t.drain.delivery = some (deliveryStart 0 queuedLetter) := by
  let s : State := { lateInitWrite with mem := { lateInitWrite.mem with
    granted := none, initNext := 1, waiting := [{ claim := .initWrite, loc := 1 }], free := [(0, 1)] } }
  have hexec : exec .initWriteComplete lateInitWrite = .next s.drainActs := rfl
  refine ⟨_, hexec, ?_⟩
  have hacted : drainActed s = drainStarted s := rfl
  rw [drainActs_eq, hacted, drainStarted_next (by rfl) rfl rfl, nextDelivery_head rfl (.inr ⟨by rfl, by rfl⟩),
    deliveryBegun_queued (l := queuedLetter) (by rfl) rfl]

/-- Refutes O47: its clause on a write of INIT that is not the last leaves the Drain Engine as it was, and does not ask for a controller in INIT;
under one that is READY the write's event starts a delivery. -/
theorem not_arbiterInitAndPatrol : ¬ Obligations.ArbiterInitAndPatrol := by
  unfold Obligations.ArbiterInitAndPatrol
  rintro ⟨-, hinit, -⟩
  obtain ⟨hnext, -⟩ := hinit lateInitWrite 0 1 rfl rfl (by omega) (by decide)
  obtain ⟨t, hexec, -, -, ht⟩ := hnext (by decide) (by decide)
  obtain ⟨t', hexec', hdelivery⟩ := lateInitWrite_delivers
  obtain rfl : t = t' := Host.Outcome.next.inj (hexec.symm.trans hexec')
  have hnone : t.drain.delivery = none := congrArg (fun x : State => x.drain.delivery) ht
  simp [hnone] at hdelivery

end Sys2Proof.DrainAndLinks
end

section
/-! A reply is placed beside what its request has done (R166): the Drain Engine looks at no reply, so that it acts before the placing as it
does after it. -/

namespace Sys2Proof.DrainAndLinks

open Sys2Proof Sys2Proof.Machine

/-! ### The place of a reply (R166) -/

/-- The device with these frames in the control queue, these requests waiting and this reply held. -/
def replyPlaced (control : List ControlFrame) (queue : List Request) (held : Option Reply) (s : State) : State :=
  { s with pool := { s.pool with control := control }, mgmt := { s.mgmt with queue := queue, heldReply := held } }

/-- A reply other than a SOFT-RESET's OK joins the control queue, or is held where that is full. -/
theorem handReply_eq (s : State) {r : Reply} (h : r.softResetOk = false) :
    s.handReply r = if s.pool.control.length < 8 then replyPlaced (s.pool.control ++ [.reply r]) s.mgmt.queue none s
      else replyPlaced s.pool.control s.mgmt.queue (some r) s := by
  unfold State.handReply PoolPort.controlRoom
  rw [joinReply_plain s r h]
  by_cases hroom : s.pool.control.length < 8 <;> simp only [hroom, decide_true, decide_false, if_true, if_false] <;> rfl

/-- With no reply held, a request that leaves the queue and whose reply is placed is answered. -/
theorem handReply_popRequest {s : State} {r : Request} {status : Status} {fields : List Byte} (hheld : s.mgmt.heldReply = none)
    (h : ¬(r.kind = 0x14#8 ∧ status = .ok)) :
    s.popRequest.handReply { kind := r.kind, tag := r.tag, status := status, fields := fields } = requestAnswered s r status fields := by
  rw [handReply_eq _ (Bool.eq_false_iff.mpr (mt (softResetOk_iff _).mp h)), requestAnswered, ← hheld]
  rfl

/-- A request that is answered changes the control queue, the request queue and the held reply. -/
theorem requestAnswered_placed (s : State) (r : Request) (status : Status) (fields : List Byte) :
    ∃ control held, requestAnswered s r status fields = replyPlaced control s.mgmt.queue.tail held s := by
  unfold requestAnswered
  dsimp only
  split
  · exact ⟨_, s.mgmt.heldReply, rfl⟩
  · exact ⟨s.pool.control, _, rfl⟩

/-- An operation that does the same whatever stands in the control queue, waits as a request or is held as a reply, and leaves them be. -/
def KeepsReplies (g : State → State) : Prop :=
  ∀ control queue held s, g (replyPlaced control queue held s) = replyPlaced control queue held (g s)

/-- Such an operation may come before a reply is placed as well as after it. -/
theorem KeepsReplies.handReply {g : State → State} (hg : KeepsReplies g) (s : State) {r : Reply} (h : r.softResetOk = false) :
    (g s).handReply r = g (s.handReply r) := by
  have hkept : g s = replyPlaced s.pool.control s.mgmt.queue s.mgmt.heldReply (g s) := hg _ _ _ s
  have hcontrol : (g s).pool.control = s.pool.control := by rw [hkept]; rfl
  have hqueue : (g s).mgmt.queue = s.mgmt.queue := by rw [hkept]; rfl
  rw [handReply_eq _ h, handReply_eq _ h, hcontrol, hqueue]
  split <;> exact (hg ..).symm

/-! ### The Drain Engine beside a reply -/

section
variable (control : List ControlFrame) (queue : List Request) (held : Option Reply) (s : State)

theorem startDelivery_replyPlaced (i : LetterIx) :
    (replyPlaced control queue held s).startDelivery i = replyPlaced control queue held (s.startDelivery i) := by
  have hletters : (replyPlaced control queue held s).letters = s.letters := rfl
  unfold State.startDelivery
  rw [hletters]
  cases s.letters[i] with
  | none => rfl
  | some l => dsimp only; split <;> rfl

theorem startNext_replyPlaced : (replyPlaced control queue held s).startNext = replyPlaced control queue held s.startNext := by
  have hhead : (replyPlaced control queue held s).nextHead = s.nextHead := rfl
  unfold State.startNext
  rw [hhead]
  cases s.nextHead with
  | none => rfl
  | some i => exact startDelivery_replyPlaced control queue held s i

theorem takeDrainStart_replyPlaced : (replyPlaced control queue held s).takeDrainStart = replyPlaced control queue held s.takeDrainStart := by
  unfold State.takeDrainStart
  rw [startNext_replyPlaced]
  exact (apply_ite (replyPlaced control queue held) ..).symm

theorem resume_replyPlaced (d : Delivery) : (replyPlaced control queue held s).resume d = replyPlaced control queue held (s.resume d) := by
  have hletters : (replyPlaced control queue held s).letters = s.letters := rfl
  unfold State.resume
  rw [hletters]
  cases s.letters[d.letter] with
  | none => rfl
  | some l => dsimp only; split <;> rfl

theorem chooseNext_replyPlaced : (replyPlaced control queue held s).chooseNext = replyPlaced control queue held s.chooseNext := by
  have hdrain : (replyPlaced control queue held s).drain = s.drain := rfl
  have hurgent : (replyPlaced control queue held s).classOf .urgent = s.classOf .urgent := rfl
  unfold State.chooseNext
  rw [hdrain, hurgent]
  cases s.drain.suspended with
  | none => exact startNext_replyPlaced control queue held s
  | some d =>
    cases s.classOf .urgent with
    | nil => exact resume_replyPlaced control queue held s d
    | cons i rest => exact startDelivery_replyPlaced control queue held s i

theorem handBack_replyPlaced (n : Nat) : (replyPlaced control queue held s).handBack n = replyPlaced control queue held (s.handBack n) := by
  have hmem : (replyPlaced control queue held s).mem = s.mem := rfl
  unfold State.handBack State.placeLoc
  rw [hmem]
  split
  · split
    · dsimp only
      split <;> rfl
    · rfl
  · rfl

theorem handBackAll_replyPlaced (ns : List Nat) :
    (replyPlaced control queue held s).handBackAll ns = replyPlaced control queue held (s.handBackAll ns) := by
  induction ns generalizing s with
  | nil => rfl
  | cons n rest ih => exact (congrArg (fun t : State => t.handBackAll rest) (handBack_replyPlaced control queue held s n)).trans (ih _)

theorem freeLetter_replyPlaced (i : LetterIx) :
    (replyPlaced control queue held s).freeLetter i = replyPlaced control queue held (s.freeLetter i) := by
  have hletters : (replyPlaced control queue held s).letters = s.letters := rfl
  unfold State.freeLetter
  rw [hletters]
  cases s.letters[i] with
  | none => rfl
  | some l =>
    dsimp only
    rw [handBackAll_replyPlaced]
    rfl

theorem endDelivery_replyPlaced (d : Delivery) (f : PartCounters → PartCounters) :
    (replyPlaced control queue held s).endDelivery d f = replyPlaced control queue held (s.endDelivery d f) := by
  have hleave : (replyPlaced control queue held s).leaveIssue d.letter = replyPlaced control queue held (s.leaveIssue d.letter) := rfl
  unfold State.endDelivery
  rw [hleave, freeLetter_replyPlaced, ← chooseNext_replyPlaced]
  rfl

theorem takeAbort_replyPlaced : (replyPlaced control queue held s).takeAbort = replyPlaced control queue held s.takeAbort := by
  have hdrain : (replyPlaced control queue held s).drain = s.drain := rfl
  have hboundary : (replyPlaced control queue held s).boundary = s.boundary := rfl
  unfold State.takeAbort
  rw [hdrain, hboundary]
  cases s.drain.delivery with
  | none => rfl
  | some d =>
    dsimp only
    split
    · split
      · exact endDelivery_replyPlaced control queue held s d _
      · rfl
    · rfl

theorem giveWay_replyPlaced (d : Delivery) (ticket : Nat) :
    (replyPlaced control queue held s).giveWay d ticket = replyPlaced control queue held (s.giveWay d ticket) := by
  unfold State.giveWay
  split <;> rfl

theorem takeSuspension_replyPlaced : (replyPlaced control queue held s).takeSuspension = replyPlaced control queue held s.takeSuspension := by
  have hdrain : (replyPlaced control queue held s).drain = s.drain := rfl
  have hletters : (replyPlaced control queue held s).letters = s.letters := rfl
  have hurgent : (replyPlaced control queue held s).classOf .urgent = s.classOf .urgent := rfl
  have hboundary : (replyPlaced control queue held s).boundary = s.boundary := rfl
  have hdue (d : Delivery) : (replyPlaced control queue held s).suspensionDue d = s.suspensionDue d := rfl
  unfold State.takeSuspension
  rw [hdrain]
  cases s.drain.delivery with
  | none => rfl
  | some d =>
    dsimp only
    rw [hletters, hurgent, hboundary, hdue]
    split
    · rw [giveWay_replyPlaced, startDelivery_replyPlaced]
      exact (apply_ite (replyPlaced control queue held) ..).symm
    · rfl

/-- The Drain Engine acts beside a reply as without it. -/
theorem drainActs_replyPlaced : (replyPlaced control queue held s).drainActs = replyPlaced control queue held s.drainActs := by
  have hdrain : (replyPlaced control queue held s).drain = s.drain := rfl
  unfold State.drainActs
  rw [hdrain]
  cases s.drain.delivery with
  | none => exact takeDrainStart_replyPlaced control queue held s
  | some d =>
    dsimp only
    split
    · exact takeAbort_replyPlaced control queue held s
    · exact takeSuspension_replyPlaced control queue held s

end

end Sys2Proof.DrainAndLinks
end

section
/-! The requests to the drain, the patrol and the counters (R112, R114, R172, R179): each is executed and then its reply is placed, which comes
to the same as doing it to the device that has answered. -/

namespace Sys2Proof.DrainAndLinks

open Sys2Proof Sys2Proof.Machine

/-! ### The execution of a request (R166) -/

section
variable {s : State} {kind : Byte} {r : Request} {act : List Byte → State → Executed}

/-- A request whose own rule does something that keeps the replies is answered OK, and the rule's effect is seen on the device that has
answered. -/
theorem execute_done (hi : s.mem.ctrl ≠ .init) (hr : RequestAt s kind r) (hk : kind ≠ 0x14#8) {g : State → State} (hg : KeepsReplies g)
    (h : act r.fields s.popRequest = .done (g s.popRequest) []) : s.execute kind act = g (requestAnswered s r .ok []) := by
  obtain ⟨hidle, hhead, rfl, hfits⟩ := hr
  have hheld : s.mgmt.heldReply = none := by simp_all [Management.idle]
  have hplain : ¬(r.kind = 0x14#8 ∧ Status.ok = .ok) := fun h => hk h.1
  rw [execute_eq s r.kind act r (by rw [State.headRequest, if_pos hidle, hhead]) rfl hfits hi, h]
  refine (hg.handReply s.popRequest ?_).trans (congrArg g (handReply_popRequest hheld hplain))
  exact Bool.eq_false_iff.mpr (mt (softResetOk_iff _).mp hplain)

/-- A request that is refused changes nothing beside its reply. -/
theorem execute_refused (hi : s.mem.ctrl ≠ .init) (hr : RequestAt s kind r) (hk : kind ≠ 0x14#8) {status : Status}
    (h : act r.fields s.popRequest = .refused s.popRequest status) : s.execute kind act = requestAnswered s r status [] := by
  obtain ⟨hidle, hhead, rfl, hfits⟩ := hr
  have hheld : s.mgmt.heldReply = none := by simp_all [Management.idle]
  rw [execute_eq s r.kind act r (by rw [State.headRequest, if_pos hidle, hhead]) rfl hfits hi, h]
  exact handReply_popRequest hheld fun h => hk h.1

end

section
variable (s : State) (r : Request) (status : Status) (fields : List Byte)

theorem requestAnswered_drain : (requestAnswered s r status fields).drain = s.drain := by
  obtain ⟨control, held, h⟩ := requestAnswered_placed s r status fields
  rw [h]
  rfl

theorem requestAnswered_chanCounters : (requestAnswered s r status fields).mgmt.chanCounters = s.mgmt.chanCounters := by
  obtain ⟨control, held, h⟩ := requestAnswered_placed s r status fields
  rw [h]
  rfl

end

/-! ### The fields of a request -/

theorem fieldAt_one (b : Byte) : fieldAt [b] 0 1 = b.toNat := by simp [fieldAt, natOfBytes]

theorem scopeOfCode_channel {n : Nat} {ch : Chan} (h : n = ch.val) : scopeOfCode n = some (.channel ch) := by
  simp [scopeOfCode, h]

theorem scopeOfCode_none {n : Nat} (h : 48 ≤ n) (h' : n < 0xFE) : scopeOfCode n = none := by
  rw [scopeOfCode, dif_neg (by omega), if_neg (by omega), if_neg (by omega)]

/-! ### Hold, patrol and counters (R112, R172, R179) -/

/-- A RELEASE-DRAIN that finds HOLD set clears it, and the Drain Engine acts. -/
theorem released_keepsReplies : KeepsReplies (fun t => (t.modDrain (fun d => { d with hold := false })).drainActs) :=
  fun control queue held t => drainActs_replyPlaced control queue held (t.modDrain (fun d => { d with hold := false }))

/-- Settles O40: the rule of each request, on the device that has answered. -/
theorem holdPatrolAndCounterRequests : Obligations.HoldPatrolAndCounterRequests := by
  unfold Obligations.HoldPatrolAndCounterRequests
  intro s r hi
  refine ⟨fun hr => ?_, fun hr => ⟨fun hhold => ?_, fun hhold => ?_⟩, fun b hb hr => ?_, fun b hb hr => ?_⟩
  · refine congrArg _ ((execute_done hi hr (by decide) (g := fun t => t.modDrain (fun d => { d with hold := true }))
      (fun _ _ _ _ => rfl) rfl).trans ?_)
    rw [State.modDrain, requestAnswered_drain]
  · refine congrArg _ ((execute_done hi hr (by decide) released_keepsReplies
      (congrArg (Executed.done · []) (if_pos hhold))).trans ?_)
    rw [drainActs_eq, State.modDrain, requestAnswered_drain]
  · have hact : actReleaseDrain r.fields s.popRequest = .done (id s.popRequest) [] :=
      congrArg (Executed.done · []) (if_neg (ne_true_of_eq_false hhold))
    exact congrArg _ (execute_done hi hr (by decide) (g := id) (fun _ _ _ _ => rfl) hact)
  · have hfield : fieldAt r.fields 0 1 = b.toNat := by rw [hb, fieldAt_one]
    refine ⟨fun h => ?_, fun h => ?_, fun h => ?_⟩
    · refine congrArg _ (execute_done hi hr (by decide) (g := fun t => t.modMgmt (fun m => { m with patrolOn := false }))
        (fun _ _ _ _ => rfl) (if_pos ?_))
      rw [hfield, h]; rfl
    · refine congrArg _ (execute_done hi hr (by decide) (g := fun t => t.modMgmt (fun m => { m with patrolOn := true }))
        (fun _ _ _ _ => rfl) ?_)
      rw [actSetPatrol, hfield, h]; rfl
    · refine congrArg _ (execute_refused hi hr (by decide) ?_)
      rw [actSetPatrol, hfield, if_neg (by omega), if_neg (by omega)]
  · have hcode : scopeOfCode (fieldAt r.fields 0 1) = scopeOfCode b.toNat := by rw [hb, fieldAt_one]
    refine ⟨fun ch h => ?_, fun h => ?_, fun h => ?_, fun h h' => ?_⟩
    · refine congrArg _ ((execute_done hi hr (by decide) (g := fun t => t.count ch (fun _ => ChanCounters.zero))
        (fun _ _ _ _ => rfl) (by rw [actClearCounters, hcode, scopeOfCode_channel h])).trans ?_)
      rw [State.count, requestAnswered_chanCounters]
      rfl
    · refine congrArg _ (execute_done hi hr (by decide) (g := fun t => t.countPart (fun _ => PartCounters.zero))
        (fun _ _ _ _ => rfl) ?_)
      rw [actClearCounters, hcode, h]
      rfl
    · refine congrArg _ (execute_done hi hr (by decide) (g := fun t => t.modMgmt (fun m =>
        { m with chanCounters := Vector.replicate 48 ChanCounters.zero, part := PartCounters.zero })) (fun _ _ _ _ => rfl) ?_)
      rw [actClearCounters, hcode, h]
      rfl
    · exact congrArg _ (execute_refused hi hr (by decide) (by rw [actClearCounters, hcode, scopeOfCode_none h h']))

/-! ### The letter that a number names (R3, R114) -/

theorem mem_heldLetters {s : State} {i : LetterIx} {l : Letter} : (i, l) ∈ s.heldLetters ↔ s.letters[i] = some l := by
  simp [State.heldLetters]

/-- A number that no letter carries finds none. -/
theorem findLetter_none {s : State} {number : Nat} (h : ∀ (i : LetterIx) (l : Letter), s.letters[i] = some l → l.number ≠ number) :
    s.findLetter number = none := by
  rw [State.findLetter]
  split
  · rfl
  · refine List.find?_eq_none.mpr fun ⟨i, l⟩ hil => ?_
    simpa using h i l (mem_heldLetters.mp hil)

/-- A number finds the one letter that carries it. -/
theorem findLetter_some {s : State} {i : LetterIx} {l : Letter} (hn : NumbersSound s) (hl : s.letters[i] = some l) :
    s.findLetter l.number = some (i, l) := by
  obtain ⟨-, hrange, hdistinct⟩ := hn
  have hpos := (hrange i l hl).1
  rw [State.findLetter, if_neg (by omega)]
  have hsome : (s.heldLetters.find? (fun il => il.2.number == l.number)).isSome :=
    List.find?_isSome.mpr ⟨(i, l), mem_heldLetters.mpr hl, by simp⟩
  obtain ⟨⟨j, m⟩, hfound⟩ := Option.isSome_iff_exists.mp hsome
  have hm : s.letters[j] = some m := mem_heldLetters.mp (List.mem_of_find?_eq_some hfound)
  have hnumber : m.number = l.number := by simpa using List.find?_some hfound
  obtain rfl := hdistinct j i m l hm hl hnumber
  obtain rfl : m = l := Option.some.inj (hm.symm.trans hl)
  exact hfound

/-! ### The letter that is freed (R26, R114) -/

/-- Locations that are handed back are not counted as abandoned letters (R125, R178). -/
theorem handBackAll_lettersAbandoned (s : State) (ns : List Nat) :
    (s.handBackAll ns).mgmt.part.lettersAbandoned = s.mgmt.part.lettersAbandoned := by
  induction ns generalizing s with
  | nil => rfl
  | cons n rest ih =>
    refine (ih (s.handBack n)).trans ?_
    unfold State.handBack State.placeLoc
    split
    · split
      · dsimp only
        split <;> rfl
      · rfl
    · rfl

/-- The device after the abort of a QUEUED letter, which leaves the issue list, is freed and counts as abandoned. -/
def queuedAborted (i : LetterIx) (t : State) : State := ((t.leaveIssue i).freeLetter i).countPart (PartCounters.addAbandoned 1)

theorem queuedAborted_keepsReplies (i : LetterIx) : KeepsReplies (queuedAborted i) :=
  fun control queue held t => congrArg (fun t : State => t.countPart (PartCounters.addAbandoned 1))
    (freeLetter_replyPlaced control queue held (t.leaveIssue i) i)

theorem letterFreed_held {s : State} {i : LetterIx} {l : Letter} (hl : s.letters[i] = some l) :
    letterFreed s i = { s with
      drain := { s.drain with issue := s.drain.issue.erase i }
      letters := s.letters.set i none
      freeSegs := s.freeSegs + l.records
      mem := (s.handBackAll (listLocs l.list)).mem
      mgmt := (s.handBackAll (listLocs l.list)).mgmt
      profiles := s.profiles.set l.slot { s.profiles[l.slot] with refs := s.profiles[l.slot].refs - 1 } } := by
  rw [letterFreed, hl]

/-- The abort of the DRAINING letter is pending, and the Drain Engine acts. -/
theorem drainingAborted_keepsReplies : KeepsReplies (fun t =>
    (t.modDrain (fun d => { d with delivery := d.delivery.map (fun c => { c with abort := true }) })).drainActs) :=
  fun control queue held t => drainActs_replyPlaced control queue held
    (t.modDrain (fun d => { d with delivery := d.delivery.map (fun c => { c with abort := true }) }))

/-- Settles O39: the letter that carries the number is found, and its state decides. -/
theorem abortLetterActsByState : Obligations.AbortLetterActsByState := by
  unfold Obligations.AbortLetterActsByState
  intro s r hi hr hn
  refine ⟨fun hnone => ?_, fun i l hl hnumber => ?_⟩
  · refine congrArg _ (execute_refused hi hr (by decide) ?_)
    have hfind : s.popRequest.findLetter (fieldAt r.fields 0 4) = none := findLetter_none hnone
    rw [actAbortLetter, hfind]
  · have hfind : s.popRequest.findLetter (fieldAt r.fields 0 4) = some (i, l) := hnumber ▸ findLetter_some hn hl
    refine ⟨fun hlive => ?_, fun ticket hp => ?_, fun ticket hp hfailed => ?_, fun ticket hp hready => ?_, fun ticket hp hready => ?_⟩
    · refine congrArg _ (execute_refused hi hr (by decide) ?_)
      rw [actAbortLetter, hfind]
      cases hp : l.phase <;> simp_all [Phase.ticket?]
    · refine ⟨_, congrArg Host.Outcome.next (execute_done hi hr (by decide) (queuedAborted_keepsReplies i) ?_), ?_⟩
      · rw [actAbortLetter, hfind]
        dsimp only
        rw [hp]
        rfl
      · obtain ⟨control, held, hplaced⟩ := requestAnswered_placed s r .ok []
        have hrecords : l.records = l.list.length := by simp [Letter.records, hp, Phase.take?]
        have habandoned := handBackAll_lettersAbandoned s (listLocs l.list)
        rw [hplaced, queuedAborted_keepsReplies i, queuedAborted, leaveAndFree_eq, letterFreed_held hl, ← hrecords, ← habandoned]
        exact ⟨rfl, rfl, rfl, rfl, rfl, rfl, rfl, rfl, rfl, rfl, rfl, rfl⟩
    · refine congrArg _ (execute_refused hi hr (by decide) ?_)
      rw [actAbortLetter, hfind]
      rcases hp with hp | hp <;> (dsimp only; rw [hp]; exact if_pos hfailed)
    · refine congrArg _ ((execute_done hi hr (by decide) drainingAborted_keepsReplies ?_).trans ?_)
      · rw [actAbortLetter, hfind]
        dsimp only
        rw [hp]
        exact if_neg (by simp [State.popRequest, hready])
      · rw [drainActs_eq, State.modDrain, requestAnswered_drain]
    · refine congrArg _ ((execute_done hi hr (by decide)
        (g := fun t => t.modDrain (fun d => { d with suspended := d.suspended.map (fun c => { c with abort := true }) }))
        (fun _ _ _ _ => rfl) ?_).trans ?_)
      · rw [actAbortLetter, hfind]
        dsimp only
        rw [hp]
        exact if_neg (by simp [State.popRequest, hready])
      · rw [State.modDrain, requestAnswered_drain]

end Sys2Proof.DrainAndLinks
end

section
/-! The frames that a port deals with itself (R158, R165, R182, R183), and what is done with a frame that leaves the receivers as they are. -/

namespace Sys2Proof.DrainAndLinks

open Sys2Proof Sys2Proof.Machine

/-! ### A delivered frame of the port's own (R182, R183) -/

theorem deliver_pause (s : State) (b : Byte) : s.deliver .pool [0x22#8, b] = s.setFlow .pause := rfl

theorem deliver_go (s : State) (b : Byte) :
    s.deliver .pool [0x23#8, b] = if s.pool.flow = .go then s else (s.setFlow .go).drainActs := rfl

theorem deliver_request (s : State) (b : Byte) {payload : List Byte} (h : 3 ≤ payload.length) :
    s.deliver .pool (0x21#8 :: b :: payload) = s.takeRequest payload := by
  have hfits : poolKindFits 0x21#8 payload.length = true := by simp [poolKindFits, h]
  exact (if_pos hfits).trans rfl

theorem deliver_poolDropped (s : State) (b : Byte) {kind : Byte} {payload : List Byte} (h : poolKindFits kind payload.length = false) :
    s.deliver .pool (kind :: b :: payload) = s.dropFrame .pool :=
  if_neg (ne_true_of_eq_false h)

theorem deliver_stationDropped (s : State) (b : Byte) {kind : Byte} {payload : List Byte}
    (h : stationKindFits kind payload.length = false) : s.deliver .station (kind :: b :: payload) = s.dropFrame .station :=
  if_neg (ne_true_of_eq_false h)

/-- Settles O21: the receiver takes the good frame, and the port does what its kind says. -/
theorem portsActOnTheirOwnFrames : Obligations.PortsActOnTheirOwnFrames := by
  unfold Obligations.PortsActOnTheirOwnFrames
  intro s
  refine ⟨fun hs => ?_, fun hs kind b payload hkind hlen => ?_⟩
  · intro p
    have hhear (kind b : Byte) (payload : List Byte) (hlen : payload.length ≤ 300) :
        s.hear .pool (frameBytes kind b payload) [] = ({ s with pool := p } : State).deliver .pool (kind :: b :: payload) :=
      hear_frame s .pool kind b payload [] hs hlen
    refine ⟨congrArg _ ((hhear _ _ [] (by simp)).trans (deliver_pause ..)), fun hflow => ?_, fun hflow => ?_,
      fun payload hmin hlen => ⟨fun hroom => ?_, fun hfull => ?_⟩, fun kind b payload hkind hlen => ?_⟩
    · exact congrArg _ ((hhear _ _ [] (by simp)).trans ((deliver_go ..).trans (if_pos hflow)))
    · rw [← drainActs_eq]
      exact congrArg _ ((hhear _ _ [] (by simp)).trans ((deliver_go ..).trans (if_neg (by simp [p, hflow]))))
    · exact congrArg _ ((hhear _ _ payload hlen).trans ((deliver_request _ _ hmin).trans (if_pos hroom)))
    · exact congrArg _ ((hhear _ _ payload hlen).trans ((deliver_request _ _ hmin).trans (if_neg (Nat.not_lt.mpr hfull))))
    · exact congrArg _ ((if_neg (ne_true_of_eq_false hkind)).trans
        ((hhear _ _ payload hlen).trans (deliver_poolDropped _ _ hkind)))
  · exact congrArg _ ((if_neg (ne_true_of_eq_false hkind)).trans
      ((hear_frame s .station kind b payload [] hs hlen).trans (deliver_stationDropped _ _ hkind)))

/-! ### What the Drain Engine's acting leaves unchanged -/

theorem takeAbort_frame (s : State) :
    s.takeAbort = { s with
      profiles := s.takeAbort.profiles, letters := s.takeAbort.letters, freeSegs := s.takeAbort.freeSegs
      drain := s.takeAbort.drain, mem := s.takeAbort.mem, mgmt := s.takeAbort.mgmt } := by
  unfold State.takeAbort
  split
  · rfl
  · split
    · split
      · exact endDelivery_frame ..
      · rfl
    · rfl

theorem drainActs_pool (s : State) : s.drainActs.pool = s.pool := by
  unfold State.drainActs
  split
  · rw [takeDrainStart_frame]
  · split
    · rw [takeAbort_frame]
    · rw [takeSuspension_frame]

/-- Where the Drain Engine may not act nothing happens (R102, R113). -/
theorem drainActs_idle {s : State} (h : s.drainMayAct = false) : s.drainActs = s := by
  have hmay : ¬s.drainMayAct = true := ne_true_of_eq_false h
  rw [drainActs_eq, drainActed]
  cases s.drain.delivery with
  | none => exact if_neg fun h => hmay h.1
  | some d =>
    dsimp only
    split
    · exact if_neg fun h => hmay h.1
    · rw [switched]
      split
      · split
        · exact if_neg fun h => hmay h.1
        · rfl
      · rfl

/-- With the pool receiver in HUNT the Drain Engine does not act (R113). -/
theorem drainActs_hunting {s : State} (h : s.pool.rx.sync = false) : s.drainActs = s :=
  drainActs_idle (by simp [State.drainMayAct, State.paused, h])

/-! ### What the stops of takes, letters and reviews leave of the station receiver -/

section
variable (s : State) (ch : Chan)

theorem closeCurrent_station : (s.closeCurrent ch).station = s.station := by rw [closeCurrent_frame]

theorem forceStopTake_rx (c : StopCause) : (s.forceStopTake ch c).station.rx = s.station.rx := by
  unfold State.forceStopTake
  split
  · rfl
  · split
    · rfl
    · dsimp only
      split <;> split
      · rfl
      · split <;> rfl
      · rfl
      · split <;> rfl

theorem entryStop_rx : (s.entryStop ch).station.rx = s.station.rx := by
  unfold State.entryStop
  split
  · rfl
  · split
    · exact forceStopTake_rx s ch .entry
    · exact forceStopTake_rx s ch .entry
    · rw [closeCurrent_station]; rfl
    · rw [closeCurrent_station]; rfl
    · rfl

theorem damageEntry_rx : (s.damageEntry ch).station.rx = s.station.rx := by
  rw [damageEntry_eq]
  refine Eq.trans ?_ (entryStop_rx s ch)
  rw [entryStop_eq]
  rfl

theorem readEntry_rx : (s.readEntry ch).1.station.rx = s.station.rx := by
  unfold State.readEntry
  split
  · rfl
  · split
    · rfl
    · exact damageEntry_rx s ch

theorem startIdle_rx : (s.startIdle ch).station.rx = s.station.rx := by
  have h := readEntry_rx s ch
  unfold State.startIdle
  split <;> simp_all

theorem deviceStopsReview_rx (result : KeyResult) (cause : StopCause) :
    (s.deviceStopsReview ch result cause).station.rx = s.station.rx := by
  unfold State.deviceStopsReview
  split
  · rfl
  · split
    · exact startIdle_rx ((s.stopReview ch).setPhase _ .opened) ch
    · rfl

end

/-- The entry to HUNT is counted and stops takes and reviews, which leaves the receiver as it is. -/
theorem huntEntered_rx (s : State) (link : Link) : (s.huntEntered link).rx link = s.rx link := by
  cases link with
  | pool => rfl
  | station =>
    have hfold (chs : List Chan) (t : State) :
        (chs.foldl (fun t ch => (t.forceStopTake ch .link).deviceStopsReview ch .done .link) t).station.rx = t.station.rx := by
      induction chs generalizing t with
      | nil => rfl
      | cons ch rest ih =>
        exact (ih _).trans ((deviceStopsReview_rx _ ch .done .link).trans (forceStopTake_rx t ch .link))
    simp only [State.huntEntered, State.rx]
    rw [hfold]
    rfl

/-! ### What a delivered frame leaves of the receiver that delivers it -/

theorem forward_station (s : State) (f : BypassFrame) : (s.forward f).station = s.station := by
  unfold State.forward
  split <;> rfl

theorem captureFrame_station (s : State) (ch : Chan) (seq : Word16) (xs : List Sample) :
    (s.captureFrame ch seq xs).station = s.station := by rw [captureFrame_frame]

theorem classifyAudio_rx (s : State) (b : Byte) (seq : Word16) (xs : List Sample) :
    (s.classifyAudio b seq xs).station.rx = s.station.rx := by
  unfold State.classifyAudio
  split
  · rfl
  · split
    · rfl
    · rename_i ch _
      have hread := readEntry_rx s ch
      split
      · rename_i hs
        rw [hs] at hread
        exact hread
      · rename_i hs
        rw [hs] at hread
        split
        · split
          · rw [captureFrame_station]; exact hread
          · exact hread
        · rw [forward_station]; exact hread
        · exact hread

theorem classifyKey_rx (s : State) (ch : Chan) (code : Byte) (count : Word16) :
    (s.classifyKey ch code count).station.rx = s.station.rx := by
  have hread := readEntry_rx s ch
  unfold State.classifyKey
  split
  · rfl
  · dsimp only
    split
    · exact (congrArg StationPort.rx (forward_station ..)).trans hread
    · exact hread

theorem admitKey_rx (s : State) (b code : Byte) (count : Word16) : (s.admitKey b code count).station.rx = s.station.rx := by
  unfold State.admitKey
  split
  · split <;> rfl
  · split
    · rfl
    · exact classifyKey_rx ..

/-- What a delivered frame does leaves the receiver that delivers it as it is. -/
theorem deliver_rx (s : State) (link : Link) (body : List Byte) : (s.deliver link body).rx link = s.rx link := by
  cases link with
  | station =>
    simp only [State.deliver, State.deliverStation, State.rx]
    split
    · split
      · exact classifyAudio_rx ..
      · exact admitKey_rx ..
    · rfl
  | pool =>
    simp only [State.deliver, State.deliverPool, State.rx]
    split
    · split
      · rfl
      · split
        · split
          · rfl
          · rw [drainActs_pool]; rfl
        · unfold State.takeRequest
          split <;> rfl
    · rfl

end Sys2Proof.DrainAndLinks
end

section
/-! What a receiver finds in the bytes it holds (R153 to R155): the bytes it passes over, a frame begun, and the bytes that begin a bad frame. -/

namespace Sys2Proof.DrainAndLinks

open Sys2Proof Sys2Proof.Machine

/-! ### Bytes that are passed over (R153, R155) -/

/-- A search passes over every byte but the first of the start pattern, and tells of a stray one. -/
theorem findFrame_skips {front : List Byte} (h : ∀ x ∈ front, x ≠ startByte) (stray : Bool) (bs : List Byte) :
    ∃ stray', findFrame true stray (front ++ bs) = findFrame true stray' bs := by
  induction front generalizing stray with
  | nil => exact ⟨stray, rfl⟩
  | cons x rest ih =>
    obtain ⟨hx, hrest⟩ := List.forall_mem_cons.mp h
    rw [List.cons_append, findFrame]
    split
    · exact ih hrest stray
    · rw [if_neg (fun h => hx h.1), if_neg (fun h => hx h.1), if_pos rfl]
      exact ih hrest true

theorem searching_iff (rx : Receiver) : rx.searching = true ↔ rx.sync = false ∨ rx.seeking = true := by
  simp [Receiver.searching, or_comm]

/-- What a receiver finds behind the bytes it passes over. -/
theorem findFrame_passedOver {rx : Receiver} {front : List Byte} (h : PassedOver rx front) (bs : List Byte) :
    ∃ stray, findFrame rx.searching false (front ++ bs) = findFrame rx.searching stray bs := by
  rcases h with hidle | ⟨hsearch, hskip⟩
  · rw [List.eq_replicate_of_mem hidle, findFrame_idle]
    exact ⟨false, rfl⟩
  · rw [(searching_iff rx).mpr hsearch]
    exact findFrame_skips hskip false bs

/-- A search passes over one stray byte. -/
theorem findFrame_stray {x : Byte} (hidle : x ≠ idleByte) (hstart : x ≠ startByte) (stray : Bool) (bs : List Byte) :
    findFrame true stray (x :: bs) = findFrame true true bs := by
  rw [findFrame, if_neg hidle, if_neg (fun h => hstart h.1), if_neg (fun h => hstart h.1), if_pos rfl]

/-! ### A frame begun (R153, R154) -/

/-- A start pattern is kept with the bytes behind it that make no whole frame yet. -/
theorem findFrame_partially {bs : List Byte} (h : judgeFrame bs = .partially) (search stray : Bool) :
    findFrame search stray (startByte :: startSecond :: bs) = .waits stray (startByte :: startSecond :: bs) := by
  rw [findFrame, if_neg (by decide), if_neg (by simp), if_pos (by simp), List.tail_cons, h]

/-- A start pattern with a bad frame behind it begins that frame. -/
theorem findFrame_judgedBad {bs : List Byte} (h : judgeFrame bs = .bad) (search stray : Bool) :
    findFrame search stray (startByte :: startSecond :: bs) = .bad stray (startSecond :: bs) := by
  rw [findFrame, if_neg (by decide), if_neg (by simp), if_pos (by simp), List.tail_cons, h]

/-- A length of 300 at most with fewer bytes behind it than header, payload and check make is judged later. -/
theorem judgeFrame_partially {l1 l0 : Byte} {body : List Byte} (hn : natOfBytes [l1, l0] ≤ 300)
    (hbody : body.length < natOfBytes [l1, l0] + 4) : judgeFrame (l1 :: l0 :: body) = .partially := by
  rw [judgeFrame]
  exact (if_neg (Nat.not_lt.mpr hn)).trans (if_pos hbody)

/-- The bytes of a frame begun are kept. -/
theorem findFrame_begun {bs : List Byte} (h : FrameBegun bs) (search stray : Bool) : findFrame search stray bs = .waits stray bs := by
  rcases h with rfl | rfl | ⟨l1, rfl⟩ | ⟨l1, l0, body, rfl, hn, hbody⟩
  · rw [findFrame, if_neg (by decide), if_pos ⟨rfl, rfl⟩]
  · exact findFrame_partially rfl search stray
  · exact findFrame_partially rfl search stray
  · exact findFrame_partially (judgeFrame_partially hn hbody) search stray

theorem frameBytes_eq (kind ch : Byte) (payload : List Byte) :
    frameBytes kind ch payload = startByte :: startSecond :: BitVec.ofNat 8 (payload.length / 256) :: BitVec.ofNat 8 payload.length ::
      (kind :: ch :: payload ++ byte2 (frameCheck (kind :: ch :: payload)).toNat) := by
  simp [frameBytes, byte2]

/-- The first bytes of a frame, of which some are still to come, are none or a frame begun. -/
theorem frameBegun_take {kind ch : Byte} {payload : List Byte} {k : Nat} (hlen : payload.length ≤ 300)
    (hk : k < (frameBytes kind ch payload).length) :
    (frameBytes kind ch payload).take k = [] ∨ FrameBegun ((frameBytes kind ch payload).take k) := by
  rw [frameBytes_eq] at hk ⊢
  match k with
  | 0 => exact .inl rfl
  | 1 => exact .inr (.inl rfl)
  | 2 => exact .inr (.inr (.inl rfl))
  | 3 => exact .inr (.inr (.inr (.inl ⟨_, rfl⟩)))
  | k + 4 =>
    have hn : natOfBytes [BitVec.ofNat 8 (payload.length / 256), BitVec.ofNat 8 payload.length] = payload.length :=
      natOfBytes_byte2 _ (by omega)
    refine .inr (.inr (.inr (.inr ⟨_, _, _, rfl, hn.trans_le hlen, ?_⟩)))
    rw [hn]
    simp [byte2] at hk ⊢
    omega

/-- A receiver that is handed idle bytes and the first bytes of a frame keeps the latter. -/
theorem find_partial {rx : Receiver} {bytes : List Byte} {n k : Nat} {kind ch : Byte} {payload : List Byte} (hlen : payload.length ≤ 300)
    (hk : k < (frameBytes kind ch payload).length)
    (h : rx.buf ++ bytes = List.replicate n idleByte ++ (frameBytes kind ch payload).take k) :
    rx.find bytes = .waits false ((frameBytes kind ch payload).take k) := by
  rw [Receiver.find, h, findFrame_idle]
  rcases frameBegun_take hlen hk with hnil | hbegun
  · rw [hnil, findFrame]
  · exact findFrame_begun hbegun _ _

/-- A receiver that awaits a frame keeps the bytes of it that have come. -/
theorem find_awaited {rx : Receiver} {bytes : List Byte} {begun : Bool} (h : FrameAwaited rx (rx.buf ++ bytes) begun) :
    ∃ stray rest, rx.find bytes = .waits stray rest ∧ rest.isEmpty = !begun := by
  obtain ⟨front, bs, hfront, hbytes, hbs⟩ := h
  obtain ⟨stray, hfind⟩ := findFrame_passedOver hfront bs
  rw [Receiver.find, hbytes, hfind]
  rcases hbs with ⟨rfl, rfl⟩ | ⟨hbegun, rfl⟩
  · exact ⟨stray, [], by rw [findFrame], rfl⟩
  · refine ⟨stray, bs, findFrame_begun hbegun _ _, ?_⟩
    rcases hbegun with rfl | rfl | ⟨l1, rfl⟩ | ⟨l1, l0, body, rfl, -, -⟩ <;> rfl

/-! ### A whole frame (R154) -/

/-- A whole frame behind idle bytes is found, and no stray byte before it. -/
theorem find_frame {rx : Receiver} {bytes rest : List Byte} {n : Nat} {kind ch : Byte} {payload : List Byte} (hlen : payload.length ≤ 300)
    (h : rx.buf ++ bytes = List.replicate n idleByte ++ (frameBytes kind ch payload ++ rest)) :
    rx.find bytes = .good false (kind :: ch :: payload) rest := by
  rw [Receiver.find, h, findFrame_idle, findFrame_frame _ _ _ _ _ _ hlen]

theorem judgeFrame_malformed {bs : List Byte} (h : Malformed bs) : judgeFrame bs = .bad := by
  obtain ⟨l1, l0, body, rfl, hlong | ⟨hwhole, hcheck⟩⟩ := h
  · exact if_pos hlong
  · by_cases hlong : 300 < natOfBytes [l1, l0]
    · exact if_pos hlong
    · exact (if_neg hlong).trans ((if_neg (Nat.not_lt.mpr hwhole)).trans (if_neg hcheck))

/-- Bytes that begin a bad frame are found to, and the search goes on from the byte behind the first of them. -/
theorem findFrame_badFrameAt {rx : Receiver} {x : Byte} {rest : List Byte} (h : BadFrameAt rx x rest) (stray : Bool) :
    findFrame rx.searching stray (x :: rest) = .bad stray rest := by
  rcases h with ⟨rfl, bs, rfl, hbs⟩ | ⟨hsync, hseeking, hidle, hstart⟩
  · exact findFrame_judgedBad (judgeFrame_malformed hbs) _ stray
  · have hsearch : ¬rx.searching = true := by simp [searching_iff, hsync, hseeking]
    rw [findFrame, if_neg hidle]
    rcases hstart with hx | ⟨y, more, rfl, hy⟩
    · rw [if_neg (fun h => hx h.1), if_neg (fun h => hx h.1), if_neg hsearch]
    · rw [if_neg (by simp), if_neg (by simp [hy]), if_neg hsearch]

theorem find_bad {rx : Receiver} {bytes rest : List Byte} {n : Nat} {x : Byte}
    (h : rx.buf ++ bytes = List.replicate n idleByte ++ x :: rest) (hbad : BadFrameAt rx x rest) :
    rx.find bytes = .bad false rest := by
  rw [Receiver.find, h, findFrame_idle, findFrame_badFrameAt hbad]

/-- In bytes that hold a whole frame a receiver finds a frame, good or bad. -/
theorem find_whole {rx : Receiver} {bytes : List Byte} (h : FrameWhole rx (rx.buf ++ bytes)) (stray : Bool) (rest : List Byte) :
    rx.find bytes ≠ .waits stray rest := by
  obtain ⟨front, hfront, hframe⟩ := h
  rcases hframe with ⟨kind, ch, payload, behind, hlen, hbytes⟩ | ⟨x, behind, hbytes, hbad⟩
  · obtain ⟨stray', hfind⟩ := findFrame_passedOver hfront (frameBytes kind ch payload ++ behind)
    rw [Receiver.find, hbytes, hfind, findFrame_frame _ _ _ _ _ _ hlen]
    simp
  · obtain ⟨stray', hfind⟩ := findFrame_passedOver hfront (x :: behind)
    rw [Receiver.find, hbytes, hfind, findFrame_badFrameAt hbad]
    simp

end Sys2Proof.DrainAndLinks
end

section
/-! The events at a receiver (R154 to R156): bytes arrive, and it acts on the frame it then finds; or its signal goes, and what is whole before
that is received first. -/

namespace Sys2Proof.DrainAndLinks

open Sys2Proof Sys2Proof.Machine

/-! ### The receiver of a link -/

@[simp] theorem rx_setRx (s : State) (link : Link) (rx : Receiver) : (s.setRx link rx).rx link = rx := by cases link <;> rfl

@[simp] theorem setRx_setRx (s : State) (link : Link) (a b : Receiver) : (s.setRx link a).setRx link b = s.setRx link b := by
  cases link <;> rfl

@[simp] theorem setRx_rx (s : State) (link : Link) : s.setRx link (s.rx link) = s := by cases link <;> rfl

@[simp] theorem rx_countPart (s : State) (link : Link) (f : PartCounters → PartCounters) : (s.countPart f).rx link = s.rx link := by
  cases link <;> rfl

@[simp] theorem rx_upsets (s : State) (us : List Upset) (link : Link) : (s.upsets us).rx link = s.rx link := by
  rw [upsets_frame]
  cases link <;> rfl

/-- Errors arise in the tables whatever a receiver holds. -/
theorem upsets_setRx (s : State) (us : List Upset) (link : Link) (rx : Receiver) :
    (s.setRx link rx).upsets us = (s.upsets us).setRx link rx := by
  induction us generalizing s with
  | nil => rfl
  | cons u rest ih =>
    have hupset : (s.setRx link rx).upset u = (s.upset u).setRx link rx := by
      unfold State.upset
      split
      · rfl
      · cases u <;> cases link <;> rfl
    exact (congrArg (fun t : State => t.upsets rest) hupset).trans (ih (s.upset u))

/-! ### What a receiver does with what it finds -/

section
variable {s : State} {link : Link} {bytes body rest : List Byte} {stray : Bool}

theorem listen_waits (h : (s.rx link).find bytes = .waits stray rest) :
    s.listen link bytes = s.setRx link { s.rx link with buf := rest, goodRun := if stray then 0 else (s.rx link).goodRun } := by
  rw [State.listen, h]

theorem listen_good (h : (s.rx link).find bytes = .good stray body rest) :
    s.listen link bytes = (s.setRx link { s.rx link with buf := rest }).goodFrame link (!stray) body := by
  rw [State.listen, h]

theorem listen_bad (h : (s.rx link).find bytes = .bad stray rest) :
    s.listen link bytes = (s.setRx link { s.rx link with buf := rest }).badFrame link := by
  rw [State.listen, h]

end

section
variable {s : State} {link : Link} {direct : Bool} (body : List Byte)

/-- In HUNT a good frame that does not follow another directly is counted and not delivered (R155). -/
theorem goodFrame_first (hsync : (s.rx link).sync = false) (h : direct = false ∨ (s.rx link).goodRun = 0) :
    s.goodFrame link direct body = s.setRx link { s.rx link with goodRun := 1 } := by
  have hgood : (s.rx link).good direct = ({ s.rx link with goodRun := 1 }, false) := by
    rw [Receiver.good, if_neg (ne_true_of_eq_false hsync), if_neg]
    rintro ⟨hdirect, hrun⟩
    rcases h with h | h
    · simp [h] at hdirect
    · omega
  rw [State.goodFrame.eq_def, hgood]
  cases link with
  | station => rfl
  | pool => exact drainActs_hunting hsync

/-- In HUNT a good frame that follows another directly brings the receiver back to SYNC, and the pool link's lets the Drain Engine act (R113,
R155). -/
theorem goodFrame_second (hsync : (s.rx link).sync = false) (h : (s.rx link).goodRun = 1) :
    s.goodFrame link true body =
      let regained := s.setRx link { s.rx link with sync := true, badRun := 0, goodRun := 0, seeking := false }
      if link = .pool then drainActed regained else regained := by
  have hgood : (s.rx link).good true = ({ s.rx link with sync := true, badRun := 0, goodRun := 0, seeking := false }, false) := by
    rw [Receiver.good, if_neg (ne_true_of_eq_false hsync), if_pos ⟨rfl, h.ge⟩]
  rw [State.goodFrame.eq_def, hgood]
  cases link with
  | station => rfl
  | pool => exact drainActs_eq _

end

section
variable {s : State} {link : Link}

/-- In HUNT a bad frame sets the good-frame run back and is not counted (R155). -/
theorem badFrame_hunting (hsync : (s.rx link).sync = false) : s.badFrame link = s.setRx link { s.rx link with goodRun := 0 } := by
  simp [State.badFrame, Receiver.bad, hsync]

/-- The first three bad frames in a row are counted, and the receiver searches (R155). -/
theorem badFrame_counted (hsync : (s.rx link).sync = true) (h : (s.rx link).badRun ≤ 2) :
    s.badFrame link =
      (s.setRx link { s.rx link with badRun := (s.rx link).badRun + 1, seeking := true }).countPart (PartCounters.addBad 1 link) := by
  have hrun : (s.rx link).badRun < 3 := by omega
  simp [State.badFrame, Receiver.bad, hsync, hrun]

/-- The fourth bad frame in a row takes the receiver to HUNT (R155). -/
theorem badFrame_fourth (hsync : (s.rx link).sync = true) (h : (s.rx link).badRun = 3) :
    s.badFrame link =
      ((s.setRx link { s.rx link with sync := false, badRun := 0, goodRun := 0, seeking := false }).countPart
        (PartCounters.addBad 1 link)).huntEntered link := by
  simp [State.badFrame, Receiver.bad, hsync, h]

/-- Whether a receiver hears a signal, and the bytes it holds, stay with a good frame. -/
theorem goodFrame_held (direct : Bool) (body : List Byte) :
    ((s.goodFrame link direct body).rx link).signal = (s.rx link).signal ∧
    ((s.goodFrame link direct body).rx link).buf = (s.rx link).buf := by
  have hgood : ((s.rx link).good direct).1.signal = (s.rx link).signal ∧ ((s.rx link).good direct).1.buf = (s.rx link).buf := by
    unfold Receiver.good
    split
    · exact ⟨rfl, rfl⟩
    · split <;> exact ⟨rfl, rfl⟩
  have hrx : (s.goodFrame link direct body).rx link = ((s.rx link).good direct).1 := by
    unfold State.goodFrame
    dsimp only
    split
    · rw [deliver_rx, rx_setRx]
    · cases link with
      | station => rfl
      | pool => exact congrArg PoolPort.rx (drainActs_pool _)
  rw [hrx]
  exact hgood

/-- Whether a receiver hears a signal, and the bytes it holds, stay with a bad frame. -/
theorem badFrame_held :
    ((s.badFrame link).rx link).signal = (s.rx link).signal ∧ ((s.badFrame link).rx link).buf = (s.rx link).buf := by
  have hbad : (s.rx link).bad.1.signal = (s.rx link).signal ∧ (s.rx link).bad.1.buf = (s.rx link).buf := by
    unfold Receiver.bad
    split
    · split <;> exact ⟨rfl, rfl⟩
    · exact ⟨rfl, rfl⟩
  have hrx : (s.badFrame link).rx link = (s.rx link).bad.1 := by
    unfold State.badFrame
    dsimp only
    split <;> split <;> simp [huntEntered_rx]
  rw [hrx]
  exact hbad

/-- A receiver that has acted on what it found hears a signal where it did before, and holds what stood behind a frame. -/
theorem listen_held {bytes : List Byte} (h : ∀ stray rest, (s.rx link).find bytes ≠ .waits stray rest) :
    ((s.listen link bytes).rx link).signal = (s.rx link).signal ∧
    ((s.listen link bytes).rx link).buf = ((s.rx link).find bytes).behind := by
  cases hfind : (s.rx link).find bytes with
  | waits stray rest => exact absurd hfind (h stray rest)
  | good stray body rest =>
    have hheld := goodFrame_held (s := s.setRx link { s.rx link with buf := rest }) (link := link) (!stray) body
    rw [rx_setRx] at hheld
    rw [listen_good hfind]
    exact hheld
  | bad stray rest =>
    have hheld := badFrame_held (s := s.setRx link { s.rx link with buf := rest }) (link := link)
    rw [rx_setRx] at hheld
    rw [listen_bad hfind]
    exact hheld

end

/-! ### The last bytes before a loss of signal (R154) -/

/-- A receiver acts on the last bytes in the same way with any fuel that is more than there are bytes. -/
theorem listenAll_fuel (link : Link) : ∀ (fuel fuel' : Nat) (s : State) (bytes : List Byte),
    ((s.rx link).buf ++ bytes).length < fuel → ((s.rx link).buf ++ bytes).length < fuel' →
    s.listenAll fuel link bytes = s.listenAll fuel' link bytes
  | 0, _, _, _, h, _ => absurd h (by omega)
  | _, 0, _, _, _, h => absurd h (by omega)
  | fuel + 1, fuel' + 1, s, bytes, h, h' => by
    rw [State.listenAll, State.listenAll]
    split
    · rfl
    · rename_i hfind
      obtain ⟨-, hbuf⟩ := listen_held hfind
      have hne : (s.rx link).buf ++ bytes ≠ [] := by
        intro hnil
        exact hfind false [] (by rw [Receiver.find, hnil, findFrame])
      have hshort : ((s.rx link).find bytes).behind.length < ((s.rx link).buf ++ bytes).length := findFrame_shorter _ _ false hne
      rw [← hbuf] at hshort
      refine listenAll_fuel link fuel fuel' (s.listen link bytes) [] ?_ ?_ <;> rw [List.append_nil] <;> omega

/-- The first whole frame among the last bytes is received as by an arrival, and then those behind it. -/
theorem listenOut_whole {s : State} {link : Link} {bytes : List Byte} (h : ∀ stray rest, (s.rx link).find bytes ≠ .waits stray rest) :
    s.listenOut link bytes = (s.listen link bytes).listenOut link [] := by
  obtain ⟨-, hbuf⟩ := listen_held h
  have hne : (s.rx link).buf ++ bytes ≠ [] := by
    intro hnil
    exact h false [] (by rw [Receiver.find, hnil, findFrame])
  have hshort : ((s.rx link).find bytes).behind.length < ((s.rx link).buf ++ bytes).length := findFrame_shorter _ _ false hne
  rw [← hbuf] at hshort
  unfold State.listenOut
  rw [State.listenAll]
  split
  · rename_i hfind
    exact absurd hfind (h _ _)
  · exact listenAll_fuel link _ _ _ _ (by rwa [List.append_nil]) (Nat.lt_succ_self _)

end Sys2Proof.DrainAndLinks
end

section
/-! FRAME_RECEIVED and SIGNAL_LOSS by the framing table (R153 to R156). -/

namespace Sys2Proof.DrainAndLinks

open Sys2Proof Sys2Proof.Machine

/-! ### FRAME_RECEIVED (R155) -/

section
variable (s : State) (link : Link) (bytes : List Byte) (us : List Upset)

/-- Bytes that arrive with a signal reach the receiver behind the errors that arose before them. -/
theorem exec_frameReceived : exec (.frameReceived link ⟨true, bytes⟩ us) s =
    .next (((s.upsets us).setRx link { s.rx link with signal := true }).listen link bytes) := by
  show execFrameReceived link ⟨true, bytes⟩ us s = _
  rw [execFrameReceived, if_pos rfl, State.hear, if_pos (by rw [rx_setRx]), upsets_setRx]

variable {s link bytes us} {body rest : List Byte} {stray : Bool}

theorem received_waits (h : (s.rx link).find bytes = .waits stray rest) :
    exec (.frameReceived link ⟨true, bytes⟩ us) s = .next ((s.upsets us).setRx link
      { s.rx link with signal := true, goodRun := if stray then 0 else (s.rx link).goodRun, buf := rest }) := by
  rw [exec_frameReceived, listen_waits (stray := stray) (rest := rest) (by rw [rx_setRx]; exact h), rx_setRx, setRx_setRx]

theorem received_good (h : (s.rx link).find bytes = .good stray body rest) :
    exec (.frameReceived link ⟨true, bytes⟩ us) s =
      .next (((s.upsets us).setRx link { s.rx link with signal := true, buf := rest }).goodFrame link (!stray) body) := by
  rw [exec_frameReceived, listen_good (stray := stray) (rest := rest) (body := body) (by rw [rx_setRx]; exact h), rx_setRx, setRx_setRx]

theorem received_bad (h : (s.rx link).find bytes = .bad stray rest) :
    exec (.frameReceived link ⟨true, bytes⟩ us) s =
      .next (((s.upsets us).setRx link { s.rx link with signal := true, buf := rest }).badFrame link) := by
  rw [exec_frameReceived, listen_bad (stray := stray) (rest := rest) (by rw [rx_setRx]; exact h), rx_setRx, setRx_setRx]

/-- In HUNT a good frame that follows no other directly counts 1. -/
theorem received_first (h : (s.rx link).find bytes = .good stray body rest) (hsync : (s.rx link).sync = false)
    (hrun : stray = true ∨ (s.rx link).goodRun = 0) :
    exec (.frameReceived link ⟨true, bytes⟩ us) s =
      .next ((s.upsets us).setRx link { s.rx link with signal := true, goodRun := 1, buf := rest }) := by
  rw [received_good h, goodFrame_first body (by rw [rx_setRx]; exact hsync), rx_setRx, setRx_setRx]
  rw [rx_setRx]
  exact hrun.imp (fun hstray => by rw [hstray]; rfl) id

/-- In HUNT a good frame that follows another directly brings the receiver back to SYNC. -/
theorem received_second (h : (s.rx link).find bytes = .good false body rest) (hsync : (s.rx link).sync = false)
    (hrun : (s.rx link).goodRun = 1) :
    exec (.frameReceived link ⟨true, bytes⟩ us) s =
      let regained := (s.upsets us).setRx link { sync := true, badRun := 0, goodRun := 0, signal := true, seeking := false, buf := rest }
      .next (if link = .pool then drainActed regained else regained) := by
  rw [received_good h]
  refine congrArg _ ((goodFrame_second body (by rw [rx_setRx]; exact hsync) (by rw [rx_setRx]; exact hrun)).trans ?_)
  rw [rx_setRx, setRx_setRx]

/-- In HUNT a bad frame sets the good-frame run back. -/
theorem received_bad_hunting (h : (s.rx link).find bytes = .bad stray rest) (hsync : (s.rx link).sync = false) :
    exec (.frameReceived link ⟨true, bytes⟩ us) s =
      .next ((s.upsets us).setRx link { s.rx link with signal := true, goodRun := 0, buf := rest }) := by
  rw [received_bad h, badFrame_hunting (by rw [rx_setRx]; exact hsync), rx_setRx, setRx_setRx]

/-- In SYNC each of the first three bad frames in a row is counted. -/
theorem received_bad_counted (h : (s.rx link).find bytes = .bad stray rest) (hsync : (s.rx link).sync = true)
    (hrun : (s.rx link).badRun ≤ 2) :
    exec (.frameReceived link ⟨true, bytes⟩ us) s =
      .next (((s.upsets us).setRx link
        { s.rx link with signal := true, badRun := (s.rx link).badRun + 1, seeking := true, buf := rest }).countPart
          (PartCounters.addBad 1 link)) := by
  rw [received_bad h, badFrame_counted (by rw [rx_setRx]; exact hsync) (by rw [rx_setRx]; exact hrun), rx_setRx, setRx_setRx]

/-- In SYNC the fourth bad frame in a row takes the receiver to HUNT. -/
theorem received_bad_fourth (h : (s.rx link).find bytes = .bad stray rest) (hsync : (s.rx link).sync = true)
    (hrun : (s.rx link).badRun = 3) :
    exec (.frameReceived link ⟨true, bytes⟩ us) s =
      .next ((((s.upsets us).setRx link
        { sync := false, badRun := 0, goodRun := 0, signal := true, seeking := false, buf := rest }).countPart
          (PartCounters.addBad 1 link)).huntEntered link) := by
  rw [received_bad h, badFrame_fourth (by rw [rx_setRx]; exact hsync) (by rw [rx_setRx]; exact hrun), rx_setRx, setRx_setRx]

/-! ### SIGNAL_LOSS (R154, R156) -/

/-- A signal that is lost was there until the last bytes had been received. -/
theorem exec_signalLoss (hsignal : (s.rx link).signal = true) :
    exec (.signalLoss link bytes us) s = .next (((s.upsets us).listenOut link bytes).loseSignal link) := by
  show execSignalLoss link bytes us s = _
  rw [execSignalLoss, if_pos hsignal]

/-- Where a frame is awaited the loss finds the receiver with the bytes of that frame. -/
theorem lost_waiting (hsignal : (s.rx link).signal = true) (h : (s.rx link).find bytes = .waits stray rest) :
    exec (.signalLoss link bytes us) s = .next (((s.upsets us).setRx link
      { s.rx link with goodRun := if stray then 0 else (s.rx link).goodRun, buf := rest }).loseSignal link) := by
  have hfind : ((s.upsets us).rx link).find bytes = .waits stray rest := by rw [rx_upsets]; exact h
  rw [exec_signalLoss hsignal, listenOut_waits _ _ _ _ _ hfind, listen_waits hfind, rx_upsets]

/-- In HUNT a loss of signal sets the good-frame run back. -/
theorem loseSignal_hunting (hsync : (s.rx link).sync = false) :
    s.loseSignal link = s.setRx link { s.rx link with goodRun := 0, signal := false, buf := [] } :=
  if_neg (ne_true_of_eq_false hsync)

/-- From SYNC a loss of signal takes the receiver to HUNT, and a frame of which it holds bytes is counted as bad. -/
theorem loseSignal_synced (hsync : (s.rx link).sync = true) :
    s.loseSignal link =
      let hunt := s.setRx link { sync := false, badRun := 0, goodRun := 0, signal := false, seeking := false, buf := [] }
      (if (s.rx link).buf.isEmpty then hunt else hunt.countPart (PartCounters.addBad 1 link)).huntEntered link :=
  if_pos hsync

/-- A loss of signal in HUNT, with no whole frame among the last bytes. -/
theorem lost_hunting {begun : Bool} (hsignal : (s.rx link).signal = true) (hsync : (s.rx link).sync = false)
    (h : FrameAwaited (s.rx link) ((s.rx link).buf ++ bytes) begun) :
    exec (.signalLoss link bytes us) s =
      .next ((s.upsets us).setRx link { s.rx link with goodRun := 0, signal := false, buf := [] }) := by
  obtain ⟨stray, rest, hfind, -⟩ := find_awaited h
  rw [lost_waiting hsignal hfind, loseSignal_hunting (by rw [rx_setRx]; exact hsync), rx_setRx, setRx_setRx]

/-- A loss of signal in SYNC, with no whole frame among the last bytes: a frame begun is counted as bad. -/
theorem lost_synced {begun : Bool} (hsignal : (s.rx link).signal = true) (hsync : (s.rx link).sync = true)
    (h : FrameAwaited (s.rx link) ((s.rx link).buf ++ bytes) begun) :
    exec (.signalLoss link bytes us) s =
      let hunt := (s.upsets us).setRx link { sync := false, badRun := 0, goodRun := 0, signal := false, seeking := false, buf := [] }
      .next ((if begun then hunt.countPart (PartCounters.addBad 1 link) else hunt).huntEntered link) := by
  obtain ⟨stray, rest, hfind, hempty⟩ := find_awaited h
  rw [lost_waiting hsignal hfind, loseSignal_synced (by rw [rx_setRx]; exact hsync), rx_setRx, setRx_setRx]
  dsimp only
  rw [hempty]
  cases begun <;> rfl

/-- A frame that is whole before the loss is received before it. -/
theorem lost_behind_frame (hsignal : (s.rx link).signal = true) (h : FrameWhole (s.rx link) ((s.rx link).buf ++ bytes)) :
    ∃ t, exec (.frameReceived link ⟨true, bytes⟩ us) s = .next t ∧
      exec (.signalLoss link bytes us) s = exec (.signalLoss link [] []) t := by
  have hhears : { s.rx link with signal := true } = s.rx link := by rw [← hsignal]
  have hsame : (s.upsets us).setRx link (s.rx link) = s.upsets us := by rw [← rx_upsets s us, setRx_rx]
  have hfind (stray : Bool) (rest : List Byte) : ((s.upsets us).rx link).find bytes ≠ .waits stray rest := by
    rw [rx_upsets]
    exact find_whole h stray rest
  have hkept : (((s.upsets us).listen link bytes).rx link).signal = true := by rw [(listen_held hfind).1, rx_upsets, hsignal]
  refine ⟨(s.upsets us).listen link bytes, ?_, ?_⟩
  · rw [exec_frameReceived, hhears, hsame]
  · rw [exec_signalLoss hsignal, listenOut_whole hfind, exec_signalLoss hkept]
    rfl

end

/-- Settles O15: what a receiver finds in its bytes decides the clause, and each finding has its event. -/
theorem receiversFollowTheFramingTable : Obligations.ReceiversFollowTheFramingTable := by
  unfold Obligations.ReceiversFollowTheFramingTable
  refine ⟨fun s link bytes us => ?_, fun s us hsync => ?_⟩
  · intro rx left
    refine ⟨fun n k kind ch payload hlen hk hbytes => ?_, fun n kind ch payload rest hlen hsync hbytes => ?_,
      fun x kind ch payload rest hlen hsync hidle hstart => ⟨fun hbytes => ?_, fun hbytes => ?_⟩, fun n x rest hbytes hbad => ?_, rfl,
      fun hsignal => congrArg _ (if_neg (ne_true_of_eq_false hsignal)), fun begun hsignal hsync h => lost_hunting hsignal hsync h,
      fun hsignal h => lost_behind_frame hsignal h⟩
    · exact received_waits (find_partial hlen hk hbytes)
    · have hfind := find_frame hlen hbytes
      exact ⟨fun hrun => received_first hfind hsync (.inr hrun), fun hrun => received_second hfind hsync hrun⟩
    · have hsearch : rx.searching = true := (searching_iff rx).mpr (.inl hsync)
      have hfind : rx.find bytes = .good true (kind :: ch :: payload) rest := by
        rw [Receiver.find, hbytes, hsearch, findFrame_stray hidle hstart, findFrame_frame _ _ _ _ _ _ hlen]
      exact received_first hfind hsync (.inl rfl)
    · have hsearch : rx.searching = true := (searching_iff rx).mpr (.inl hsync)
      have hfind : rx.find bytes = .waits true [] := by
        rw [Receiver.find, hbytes, hsearch, findFrame_stray hidle hstart, findFrame]
      exact received_waits hfind
    · have hfind := find_bad hbytes hbad
      exact ⟨fun hsync => received_bad_hunting hfind hsync, fun hsync hrun => received_bad_counted hfind hsync hrun⟩
  · intro hunt
    refine ⟨fun bytes n x rest hrun hbytes hbad => ?_, fun bytes begun hsignal h => ?_⟩
    · exact received_bad_fourth (link := .pool) (find_bad hbytes hbad) hsync hrun
    · exact lost_synced (link := .pool) hsignal hsync h

end Sys2Proof.DrainAndLinks
end

section
/-! A delivered KEY frame (R146, R147, R150, R159): the admission check, which puts the key in flight, and the Frame Classifier, which lands
it again or hands it to the Letter Controller. -/

namespace Sys2Proof.ChannelTable

open Sys2Proof Sys2Proof.Machine Sys2Proof.CaptureAndCoder

/-! ### A key in flight (R159) -/

/-- The device with one more key frame of a channel in flight. -/
def keyFlying (s : State) (ch : Chan) : State :=
  { s with station := { s.station with inFlight := s.station.inFlight.set ch (s.station.inFlight[ch] + 1) } }

/-- A key that lands leaves the count of those in flight as it was before the key's admission. -/
theorem landKey_keyFlying (s : State) (ch : Chan) : (keyFlying s ch).landKey ch = s := by
  simp [State.landKey, keyFlying, State.modStation, upd]

theorem forward_room {s : State} (f : BypassFrame) (h : s.pool.bypass.length < 64) :
    s.forward f = { s with pool := { s.pool with bypass := s.pool.bypass ++ [f] } } := if_pos h

theorem forward_full {s : State} (f : BypassFrame) (h : 64 ≤ s.pool.bypass.length) :
    s.forward f = s.countPart (PartCounters.addBypassDrops 1) := if_neg (Nat.not_lt.mpr h)

/-- The bypass queue and the count of keys in flight do not meet. -/
theorem forward_keyFlying (s : State) (ch : Chan) (f : BypassFrame) : (keyFlying s ch).forward f = keyFlying (s.forward f) ch := by
  rcases Nat.lt_or_ge s.pool.bypass.length 64 with h | h
  · rw [forward_room f h, forward_room (s := keyFlying s ch) f h]
    rfl
  · rw [forward_full f h, forward_full (s := keyFlying s ch) f h]
    rfl

/-! ### The admission check (R146, R159) -/

section
variable (s : State) {b : Byte} (code : Byte) (count : Word16) {ch : Chan}

theorem admitKey_badChannel (h : s.mem.ctrl ≠ .init) (hb : 48 ≤ b.toNat) :
    s.admitKey b code count = s.countPart (PartCounters.addBadChannel 1) := by
  rw [State.admitKey, chanOfByte_bad hb]
  exact if_neg h

theorem admitKey_overrun (hb : b.toNat = ch.val) (h : 16 ≤ s.station.replies[ch].length + s.station.inFlight[ch]) :
    s.admitKey b code count = s.countPart (PartCounters.addKeyOverruns 1) := by
  rw [State.admitKey, chanOfByte_chan hb]
  exact if_pos h

theorem admitKey_admitted (hb : b.toNat = ch.val) (h : s.station.replies[ch].length + s.station.inFlight[ch] < 16) :
    s.admitKey b code count = (keyFlying s ch).classifyKey ch code count := by
  rw [State.admitKey, chanOfByte_chan hb]
  exact if_neg (Nat.not_le.mpr h)

end

/-! ### The Frame Classifier (R147, R148, R150) -/

/-- The device after a key has been handed to the Letter Controller, marked where its own frame found the parity of the entry wrong. -/
def keyHanded (s : State) (ch : Chan) (code : Byte) (count : Word16) (spoilt : Bool) : State :=
  { s with wires := { s.wires with
      keys := s.wires.keys.set ch (s.wires.keys[ch] ++ [{ code := code, count := count.toNat, spoilt := spoilt }]) } }

section
variable (s : State) {ch : Chan} (code : Byte) (count : Word16)

theorem classifyKey_init (h : s.mem.ctrl = .init) : s.classifyKey ch code count = s.landKey ch := if_pos h

/-- Under a BYPASS entry the key is offered to the bypass queue and lands (R147, R150, R159). -/
theorem classifyKey_bypass {st : Settings} (h : s.mem.ctrl ≠ .init) (hgood : EntryGood s ch st) (hmode : st.mode = .bypass) :
    s.classifyKey ch code count =
      (s.forward { chan := ch, isKey := true, payload := keyPayload code count.toNat }).landKey ch := by
  rw [State.classifyKey, if_neg h, readEntry_good s ch st hgood.1 hgood.2]
  simp [hmode]

/-- A key whose read delivers no settings, or those of an entry not BYPASS, is handed to the Letter Controller (R147). -/
theorem classifyKey_handed {t : State} {out : Option Settings} (h : s.mem.ctrl ≠ .init) (hread : s.readEntry ch = (t, out))
    (hmode : out.map Settings.mode ≠ some .bypass) :
    s.classifyKey ch code count = keyHanded t ch code count (out.isNone && !s.table[ch].damaged) := by
  rw [State.classifyKey, if_neg h, hread]
  dsimp only
  split
  · next hbypass => exact absurd hbypass hmode
  · rfl

/-- A key under a DAMAGED entry, or a GOOD one not BYPASS, is handed over unmarked (R144, R147). -/
theorem classifyKey_unspoilt (h : s.mem.ctrl ≠ .init)
    (hentry : s.table[ch].damaged = true ∨ ∃ st, EntryGood s ch st ∧ st.mode ≠ .bypass) :
    s.classifyKey ch code count = keyHanded s ch code count false := by
  rcases hentry with hdamaged | ⟨st, hgood, hmode⟩
  · rw [classifyKey_handed s code count h (readEntry_damaged s ch hdamaged) (by simp), hdamaged]
    rfl
  · rw [classifyKey_handed s code count h (readEntry_good s ch st hgood.1 hgood.2) (by simpa using hmode)]
    rfl

/-- A key whose own read finds the parity wrong is handed over marked, after the entry has been dealt with (R143, R148). -/
theorem classifyKey_spoilt (h : s.mem.ctrl ≠ .init) (hwrong : EntryWrong s ch) :
    s.classifyKey ch code count = keyHanded (entryDamaged s ch) ch code count true := by
  rw [classifyKey_handed s code count h (readEntry_bad s ch hwrong.1 hwrong.2) (by simp), hwrong.1, damageEntry_eq]
  rfl

end

/-! ### What the stop of a letter for its entry leaves of the keys in passage -/

theorem letterClosed_keys (s : State) (ch : Chan) (i : LetterIx) (l : Letter) : (letterClosed s ch i l).wires.keys = s.wires.keys := by
  unfold letterClosed
  dsimp only
  split
  · rfl
  · rw [queueGrown_wires]

theorem entryStopped_keys (s : State) (ch : Chan) : (entryStopped s ch).wires.keys = s.wires.keys := by
  unfold entryStopped
  split
  · rfl
  · dsimp only
    split
    · rfl
    · rfl
    · exact letterClosed_keys ..
    · exact letterClosed_keys ..
    · rfl

/-- A parity found wrong takes no key from the Letter Controller's queues (R143). -/
theorem entryDamaged_keys (s : State) (ch : Chan) : (entryDamaged s ch).wires.keys = s.wires.keys := entryStopped_keys s ch

/-! ### The delivered KEY frame -/

@[simp] theorem goodTaken_wires (s : State) (us : List Upset) : (goodTaken s us .station).wires = s.wires := by rw [goodTaken_frame]

@[simp] theorem goodTaken_replies (s : State) (us : List Upset) :
    (goodTaken s us .station).station.replies = s.station.replies := by rw [goodTaken_frame]

@[simp] theorem goodTaken_inFlight (s : State) (us : List Upset) :
    (goodTaken s us .station).station.inFlight = s.station.inFlight := by rw [goodTaken_frame]

/-- A KEY frame that arrives whole at a listening receiver passes to the admission check (R156, R159). -/
theorem exec_key (s : State) (b code : Byte) (count : Word16) (us : List Upset) (hs : Listening s .station) :
    exec (.key b code count us) s = .next ((goodTaken s us .station).admitKey b code count) :=
  execKey_delivered s b code count us hs

/-- Settles O20: the admission check, and behind it one branch of the Frame Classifier for each clause. -/
theorem keyFramesAreAdmittedAndRouted : Obligations.KeyFramesAreAdmittedAndRouted := by
  unfold Obligations.KeyFramesAreAdmittedAndRouted
  intro s b code count us hs u
  rw [exec_key s b code count us hs]
  have hmem : u.mem = s.mem := goodTaken_mem s us
  have hpool : u.pool = s.pool := goodTaken_pool s us
  have hwires : u.wires = s.wires := goodTaken_wires s us
  have hreplies : u.station.replies = s.station.replies := goodTaken_replies s us
  have hflight : u.station.inFlight = s.station.inFlight := goodTaken_inFlight s us
  rw [← hmem, ← hpool, ← hwires, ← hreplies, ← hflight]
  refine ⟨fun hb h => ?_, fun ch hb hfull => ?_, fun ch hb hroom => ?_⟩
  · exact congrArg _ (admitKey_badChannel u code count h hb)
  · exact congrArg _ (admitKey_overrun u code count hb hfull)
  · rw [admitKey_admitted u code count hb hroom]
    have hbypass (st : Settings) (h : u.mem.ctrl ≠ .init) (hgood : EntryGood u ch st) (hmode : st.mode = .bypass) :
        (keyFlying u ch).classifyKey ch code count =
          u.forward { chan := ch, isKey := true, payload := keyPayload code count.toNat } := by
      rw [classifyKey_bypass (keyFlying u ch) code count h hgood hmode, forward_keyFlying, landKey_keyFlying]
    refine ⟨fun h => ?_, fun st h hgood hmode hqueue => ?_, fun st h hgood hmode hqueue => ?_, fun h hentry => ?_, fun h hwrong => ?_⟩
    · rw [classifyKey_init (keyFlying u ch) code count h, landKey_keyFlying]
    · exact congrArg _ ((hbypass st h hgood hmode).trans (forward_room _ hqueue))
    · exact congrArg _ ((hbypass st h hgood hmode).trans (forward_full _ hqueue))
    · exact congrArg _ (classifyKey_unspoilt (keyFlying u ch) code count h hentry)
    · have hkeys : (entryDamaged (keyFlying u ch) ch).wires.keys = u.wires.keys := entryDamaged_keys (keyFlying u ch) ch
      rw [classifyKey_spoilt (keyFlying u ch) code count h hwrong, keyHanded, hkeys]
      rfl

end Sys2Proof.ChannelTable
end

section
/-! WRITE-CHANNEL (R138, R140): the settings that its fields hold, and where they are written. -/

namespace Sys2Proof.ChannelTable

open Sys2Proof Sys2Proof.Machine Sys2Proof.DrainAndLinks

/-! ### The fields of a WRITE-CHANNEL (R138) -/

/-- The 1-byte field behind some bytes reads back as the number it was made of. -/
theorem fieldAt_byte1 (front behind : List Byte) (n : Nat) (h : n < 256) :
    fieldAt (front ++ (byte1 n ++ behind)) front.length 1 = n := by
  rw [fieldAt, List.drop_left]
  simp [byte1, natOfBytes, Nat.mod_eq_of_lt h]

/-- The 3-byte field behind some bytes reads back as the number it was made of. -/
theorem fieldAt_byte3 (front behind : List Byte) (n : Nat) (h : n < 16777216) :
    fieldAt (front ++ (byte3 n ++ behind)) front.length 3 = n := by
  rw [fieldAt, List.drop_left]
  simp [byte3, byte2, natOfBytes]
  omega

theorem modeOfCode_modeCode (m : Mode) : modeOfCode (modeCode m) = some m := by cases m <;> rfl

theorem classOfCode_classCode (c : Priority) : classOfCode (classCode c) = some c := by cases c <;> rfl

theorem modeCode_lt (m : Mode) : modeCode m < 256 := by cases m <;> decide

theorem classCode_lt (c : Priority) : classCode c < 256 := by cases c <;> decide

theorem modeOfCode_none {n : Nat} (h : 2 < n) : modeOfCode n = none := by
  match n with
  | n + 3 => rfl

theorem classOfCode_none {n : Nat} (h : 1 < n) : classOfCode n = none := by
  match n with
  | n + 2 => rfl

theorem chanField_val {bs : List Byte} {i : Nat} {ch : Chan} (h : fieldAt bs i 1 = ch.val) : chanField bs i = some ch := by
  simp [chanField, h]

theorem chanField_none {bs : List Byte} {i : Nat} (h : 48 ≤ fieldAt bs i 1) : chanField bs i = none := dif_neg (Nat.not_lt.mpr h)

theorem slotField_val {bs : List Byte} {i : Nat} {k : Slot} (h : fieldAt bs i 1 = k.val) : slotField bs i = some k := by
  simp [slotField, h]

theorem slotField_none {bs : List Byte} {i : Nat} (h : 15 < fieldAt bs i 1) : slotField bs i = none := dif_neg (by omega)

/-- The settings that some fields hold, where each field is in range (R138). -/
theorem settingsField_eq {bs : List Byte} {i : Nat} {mode : Mode} {slot : Slot} {cls : Priority}
    (hmode : modeOfCode (fieldAt bs i 1) = some mode) (hslot : slotField bs (i + 4) = some slot)
    (hcls : classOfCode (fieldAt bs (i + 5) 1) = some cls) (hdur : 1 ≤ fieldAt bs (i + 6) 2) (hidle : fieldAt bs (i + 8) 1 ≤ 240) :
    settingsField bs i = some { mode := mode, author := fieldAt bs (i + 1) 3, slot := slot, cls := cls,
                                maxDur := fieldAt bs (i + 6) 2, minutes := fieldAt bs (i + 8) 1 } := by
  simp only [settingsField, hmode, hslot, hcls]
  exact if_pos ⟨hdur, hidle⟩

/-- One field out of range is enough for there to be no settings (R138). -/
theorem settingsField_none {bs : List Byte} {i : Nat}
    (h : 2 < fieldAt bs i 1 ∨ 15 < fieldAt bs (i + 4) 1 ∨ 1 < fieldAt bs (i + 5) 1 ∨ fieldAt bs (i + 6) 2 = 0 ∨
      240 < fieldAt bs (i + 8) 1) : settingsField bs i = none := by
  unfold settingsField
  split
  · next mode slot cls hmode hslot hcls =>
    rcases h with h | h | h | h | h
    · rw [modeOfCode_none h] at hmode; cases hmode
    · rw [slotField_none h] at hslot; cases hslot
    · rw [classOfCode_none h] at hcls; cases hcls
    · exact if_neg (by dsimp only; omega)
    · exact if_neg (by dsimp only; omega)
  · rfl

/-- The settings behind a channel number read back as those they were made of (R138, 11.3). -/
theorem settingsField_settingsBytes (n : Nat) (st : Settings) (hauthor : st.author < 16777216) (hmin : 1 ≤ st.maxDur)
    (hmax : st.maxDur ≤ 65535) (hidle : st.minutes ≤ 240) : settingsField (byte1 n ++ settingsBytes st) 1 = some st := by
  have fmode : fieldAt (byte1 n ++ settingsBytes st) 1 1 = modeCode st.mode := fieldAt_byte1 [_] _ _ (modeCode_lt _)
  have fauthor : fieldAt (byte1 n ++ settingsBytes st) 2 3 = st.author := fieldAt_byte3 [_, _] _ _ hauthor
  have fslot : fieldAt (byte1 n ++ settingsBytes st) 5 1 = st.slot.val := fieldAt_byte1 [_, _, _, _, _] _ _ (by omega)
  have fcls : fieldAt (byte1 n ++ settingsBytes st) 6 1 = classCode st.cls := fieldAt_byte1 [_, _, _, _, _, _] _ _ (classCode_lt _)
  have fdur : fieldAt (byte1 n ++ settingsBytes st) 7 2 = st.maxDur := fieldAt_byte2 [_, _, _, _, _, _, _] _ _ (by omega)
  have fidle : fieldAt (byte1 n ++ settingsBytes st) 9 1 = st.minutes := fieldAt_byte1 [_, _, _, _, _, _, _, _, _] _ _ (by omega)
  rw [settingsField_eq (by rw [fmode, modeOfCode_modeCode]) (slotField_val fslot) (by rw [fcls, classOfCode_classCode])
    (by rw [fdur]; exact hmin) (by rw [fidle]; exact hidle), fauthor, fdur, fidle]

/-! ### Where the settings are written (R140) -/

/-- The channel has a live letter as the Channel Table sees it: a current one, or one whose end it has not been told of. -/
theorem channelLive_iff (s : State) (ch : Chan) : s.channelLive ch = true ↔ s.ctxs[ch].current ≠ none ∨ 0 < s.wires.noLive[ch] := by
  simp [State.channelLive, Option.isSome_iff_ne_none]

section
variable {bs : List Byte} (s : State) {ch : Chan} {st : Settings}

theorem actWriteChannel_refused (h : chanField bs 0 = none ∨ settingsField bs 1 = none) :
    actWriteChannel bs s = .refused s .badField := by
  unfold actWriteChannel
  rcases h with h | h <;> simp [h]

theorem actWriteChannel_staged (hch : chanField bs 0 = some ch) (hst : settingsField bs 1 = some st)
    (hlive : s.channelLive ch = true) (hdamaged : s.table[ch].damaged = false) :
    actWriteChannel bs s =
      .done (s.modEntry ch (fun e => { e with pendingCopy := some { settings := st, parityOk := true } })) (byte1 1) := by
  simp only [actWriteChannel, hch, hst]
  exact if_pos ⟨hlive, hdamaged⟩

theorem actWriteChannel_set (hch : chanField bs 0 = some ch) (hst : settingsField bs 1 = some st)
    (h : s.table[ch].damaged = true ∨ s.channelLive ch = false) :
    actWriteChannel bs s =
      .done (s.modEntry ch (fun _ => { damaged := false, inForce := { settings := st, parityOk := true }, pendingCopy := none }))
        (byte1 0) := by
  simp only [actWriteChannel, hch, hst]
  refine if_neg fun ⟨hlive, hgood⟩ => ?_
  rcases h with h | h
  · rw [h] at hgood; cases hgood
  · rw [h] at hlive; cases hlive

end

/-! ### The reply of a request that has written an entry (R166) -/

/-- A change of a channel's entry looks at no reply and leaves them be. -/
theorem modEntry_keepsReplies (ch : Chan) (f : ChannelEntry → ChannelEntry) : KeepsReplies (fun t => t.modEntry ch f) :=
  fun _ _ _ _ => rfl

theorem requestAnswered_table (s : State) (r : Request) (status : Status) (fields : List Byte) :
    (requestAnswered s r status fields).table = s.table := by
  obtain ⟨control, held, h⟩ := requestAnswered_placed s r status fields
  rw [h]
  rfl

section
variable {s : State} {kind : Byte} {r : Request} {act : List Byte → State → Executed} {fields : List Byte}

/-- A request whose own rule does something that keeps the replies is answered OK with the fields that the rule returns, and the rule's effect
is seen on the device that has answered. -/
theorem execute_answered (hi : s.mem.ctrl ≠ .init) (hr : RequestAt s kind r) (hk : kind ≠ 0x14#8) {g : State → State}
    (hg : KeepsReplies g) (h : act r.fields s.popRequest = .done (g s.popRequest) fields) :
    s.execute kind act = g (requestAnswered s r .ok fields) := by
  obtain ⟨hidle, hhead, rfl, hfits⟩ := hr
  have hheld : s.mgmt.heldReply = none := by simp_all [Management.idle]
  have hplain : ¬(r.kind = 0x14#8 ∧ Status.ok = .ok) := fun h => hk h.1
  rw [execute_eq s r.kind act r (by rw [State.headRequest, if_pos hidle, hhead]) rfl hfits hi, h]
  refine (hg.handReply s.popRequest ?_).trans (congrArg g (handReply_popRequest hheld hplain))
  exact Bool.eq_false_iff.mpr (mt (softResetOk_iff _).mp hplain)

/-- A request whose own rule changes an entry is answered, and beside its reply the entry is changed. -/
theorem execute_modEntry (hi : s.mem.ctrl ≠ .init) (hr : RequestAt s kind r) (hk : kind ≠ 0x14#8) {ch : Chan}
    {f : ChannelEntry → ChannelEntry} (h : act r.fields s.popRequest = .done (s.popRequest.modEntry ch f) fields) :
    s.execute kind act = { requestAnswered s r .ok fields with table := s.table.set ch (f s.table[ch]) } := by
  rw [execute_answered hi hr hk (modEntry_keepsReplies ch f) h, State.modEntry, requestAnswered_table]
  rfl

end

/-- Settles O36: the request is refused, staged or set by its fields, the channel's letter and the entry. -/
theorem writeChannelSetsOrStagesTheEntry : Obligations.WriteChannelSetsOrStagesTheEntry := by
  unfold Obligations.WriteChannelSetsOrStagesTheEntry
  intro s r hi hr
  refine ⟨fun hrange => ?_, fun ch st hfields hauthor hmin hmax hidle => ?_⟩
  · have hnone : chanField r.fields 0 = none ∨ settingsField r.fields 1 = none :=
      hrange.imp chanField_none fun h => settingsField_none h
    exact congrArg _ (execute_refused hi hr (by decide) (actWriteChannel_refused _ hnone))
  · have hch : chanField r.fields 0 = some ch := by
      rw [hfields]
      exact chanField_val (fieldAt_byte1 [] (settingsBytes st) ch.val (by omega))
    have hst : settingsField r.fields 1 = some st := by
      rw [hfields]
      exact settingsField_settingsBytes ch.val st hauthor hmin hmax hidle
    refine ⟨fun hgood hlive => ?_, fun h => ?_⟩
    · exact congrArg _ (execute_modEntry hi hr (by decide)
        (actWriteChannel_staged s.popRequest hch hst ((channelLive_iff s ch).mpr hlive) hgood))
    · have hset : s.table[ch].damaged = true ∨ s.channelLive ch = false :=
        h.imp_right fun ⟨hcur, hnotice⟩ => Bool.eq_false_iff.mpr fun hlive =>
          ((channelLive_iff s ch).mp hlive).elim (· hcur) (by omega)
      exact congrArg _ (execute_modEntry hi hr (by decide) (actWriteChannel_set s.popRequest hch hst hset))

end Sys2Proof.ChannelTable
end

section
/-! The execution of the head request (R166): every kind in INIT, a request that is not one the device knows, and what an answered request
leaves of the Management Handler's records. -/

namespace Sys2Proof.Requests

open Sys2Proof Sys2Proof.Machine Sys2Proof.DrainAndLinks

/-! ### Where an execution can begin (R166) -/

theorem heldReply_of_idle {m : Management} (h : m.idle = true) : m.heldReply = none := by
  obtain ⟨-, hheld⟩ := Bool.and_eq_true_iff.mp h
  simpa using hheld

theorem headRequest_of_idle {s : State} {r : Request} (hidle : s.mgmt.idle = true) (hhead : s.mgmt.queue.head? = some r) :
    s.headRequest = some r := by
  rw [State.headRequest, if_pos hidle, hhead]

/-- The command of each kind executes the head request by a rule of its kind. -/
theorem exec_of_mem_requestCommands {kind : Byte} {c : Instr} (h : (kind, c) ∈ requestCommands) :
    ∃ act, ∀ s, exec c s = .next (s.execute kind act) := by
  unfold requestCommands at h
  fin_cases h <;> exact ⟨_, fun _ => rfl⟩

/-- In INIT a request of any kind has no effect but its reply. -/
theorem execute_init {s : State} {kind : Byte} {r : Request} (hi : s.mem.ctrl = .init) (hr : RequestAt s kind r)
    (act : List Byte → State → Executed) : s.execute kind act = requestAnswered s r .starting [] := by
  obtain ⟨hidle, hhead, rfl, hfits⟩ := hr
  rw [execute_starting s r.kind act r (headRequest_of_idle hidle hhead) rfl hfits hi]
  exact handReply_popRequest (heldReply_of_idle hidle) fun ⟨_, hok⟩ => nomatch hok

/-- BAD_REQUEST answers a head request that does not fit, whatever the controller does. -/
theorem exec_badRequest_unfit {s : State} {r : Request} (hidle : s.mgmt.idle = true) (hhead : s.mgmt.queue.head? = some r)
    (hunfit : r.fits = false) : exec .badRequest s = .next (requestAnswered s r .badRequest []) := by
  change execBadRequest s = _
  rw [execBadRequest, headRequest_of_idle hidle hhead]
  refine congrArg _ ((if_neg (ne_true_of_eq_false hunfit)).trans ?_)
  exact handReply_popRequest (heldReply_of_idle hidle) fun ⟨_, hok⟩ => nomatch hok

/-- Settles O34: neither answer is a SOFT-RESET's OK, so that the reply is all that happens. -/
theorem badRequestsAndRequestsInInit : Obligations.BadRequestsAndRequestsInInit := by
  unfold Obligations.BadRequestsAndRequestsInInit
  refine fun s r => ⟨exec_badRequest_unfit, fun kind c hc hr hi => ?_⟩
  obtain ⟨act, hexec⟩ := exec_of_mem_requestCommands hc
  rw [hexec, execute_init hi hr act]

/-! ### What an answered request leaves (R166) -/

section
variable (s : State) (r : Request) (status : Status) (fields : List Byte)

theorem requestAnswered_letters : (requestAnswered s r status fields).letters = s.letters := by
  obtain ⟨control, held, h⟩ := requestAnswered_placed s r status fields
  rw [h]
  rfl

theorem requestAnswered_faults : (requestAnswered s r status fields).mgmt.faults = s.mgmt.faults := by
  obtain ⟨control, held, h⟩ := requestAnswered_placed s r status fields
  rw [h]
  rfl

theorem requestAnswered_owed : (requestAnswered s r status fields).mgmt.owed = s.mgmt.owed := by
  obtain ⟨control, held, h⟩ := requestAnswered_placed s r status fields
  rw [h]
  rfl

end

end Sys2Proof.Requests
end

section
/-! What the reset event keeps of the Management Handler (R164, R180): only the Fault Record and the owed notices can differ from the
handler's reset values, by the pending copies that the event applies. -/

namespace Sys2Proof.Requests

open Sys2Proof Sys2Proof.Machine

/-- A management handler with the Fault Record and the owed notices of another. -/
def withReports (m reports : Management) : Management := { m with faults := reports.faults, owed := reports.owed }

theorem recordDetection_mgmt (s : State) (c : FaultContext) :
    (s.recordDetection c).mgmt = withReports s.mgmt (s.recordDetection c).mgmt := by
  unfold State.recordDetection State.makeNotice
  dsimp only
  split
  · split <;> rfl
  · rfl

/-- The application of a pending copy in the reset event can change the Fault Record and the owed notices, no more of the handler (R139). -/
theorem resetCopy_mgmt (s : State) (ch : Chan) : (s.resetCopy ch).mgmt = withReports s.mgmt (s.resetCopy ch).mgmt := by
  have hkept : (s.applyPendingCopy ch).1.mgmt = s.mgmt := by rw [applyPendingCopy_frame]
  unfold State.resetCopy
  split
  next t happlied =>
    rw [happlied] at hkept
    rw [hkept]
    rfl
  next t c happlied =>
    rw [happlied] at hkept
    rw [← hkept]
    exact recordDetection_mgmt t c

theorem resetCopies_mgmt (chs : List Chan) (s : State) :
    (chs.foldl State.resetCopy s).mgmt = withReports s.mgmt (chs.foldl State.resetCopy s).mgmt := by
  induction chs generalizing s with
  | nil => rfl
  | cons ch rest ih =>
    rw [List.foldl_cons, ih, resetCopy_mgmt]
    rfl

/-- The Management Handler after the reset event (R164, R180). -/
theorem softReset_mgmt (s : State) : s.softReset.mgmt = withReports s.mgmt.softReset s.softReset.mgmt :=
  resetCopies_mgmt (List.finRange 48) s.resetBlocks

theorem softReset_letterCounter (s : State) : s.softReset.mgmt.letterCounter = s.mgmt.letterCounter := by
  rw [softReset_mgmt]
  rfl

theorem softReset_level (s : State) : s.softReset.mgmt.level = s.mgmt.level := by
  rw [softReset_mgmt]
  rfl

/-! ### The two events in which the OK of a SOFT-RESET joins (R166, R180) -/

/-- A SOFT-RESET whose reply finds room is answered, and the reset is taken. -/
theorem exec_softReset_room {s : State} {r : Request} (hi : s.mem.ctrl ≠ .init) (hr : RequestAt s 0x14#8 r)
    (hroom : s.pool.control.length < 8) :
    exec .softReset s =
      .next (s.popRequest.queueReply { kind := 0x14#8, tag := r.tag, status := .ok, fields := [] }).softReset := by
  obtain ⟨hidle, hhead, hkind, hfits⟩ := hr
  have hctl : s.popRequest.pool.controlRoom = true := decide_eq_true hroom
  change Host.Outcome.next (s.execute 0x14#8 actSoftReset) = _
  rw [execute_eq s _ actSoftReset r (headRequest_of_idle hidle hhead) hkind hfits hi]
  change Host.Outcome.next (s.popRequest.handReply _) = _
  rw [State.handReply, if_pos hctl, joinReply_softReset _ _ rfl]
  rfl

/-- At a frame boundary with a SOFT-RESET's OK held and no notice owed, the first frame is sent, the OK joins, and the reset is taken. -/
theorem exec_poolFrameBoundary_heldReset {s : State} {r : Reply} {f : ControlFrame} {rest : List ControlFrame}
    (hheld : s.mgmt.heldReply = some r) (hkind : r.kind = 0x14#8) (hok : r.status = .ok) (hcontrol : s.pool.control = f :: rest)
    (howed : s.mgmt.owed = []) :
    exec .poolFrameBoundary s =
      .next ((s.modPool (fun p => { p with control := rest, sending := some (.control f) })).queueReply r).softReset := by
  change Host.Outcome.next s.poolBoundary = _
  unfold State.poolBoundary
  rw [hcontrol]
  dsimp only
  unfold State.handControl
  rw [State.modPool_mgmt, howed, hheld]
  exact congrArg _ (joinReply_softReset _ _ ((softResetOk_iff r).mpr ⟨hkind, hok⟩))

end Sys2Proof.Requests
end

section
/-! SET-LETTER-BASE (R171), CLEAR-FAULTS (R176) and SET-NOTICES (R177). -/

namespace Sys2Proof.Requests

open Sys2Proof Sys2Proof.Machine Sys2Proof.DrainAndLinks

/-! ### The next letter's number (R3, R171) -/

theorem heldLetters_eq_nil {s : State} : s.heldLetters = [] ↔ ∀ i : LetterIx, s.letters[i] = none := by
  constructor
  · intro h i
    refine Option.eq_none_iff_forall_ne_some.mpr fun l hl => ?_
    exact List.not_mem_nil (h ▸ mem_heldLetters.mpr hl)
  · intro h
    refine List.eq_nil_iff_forall_not_mem.mpr fun ⟨i, l⟩ hil => ?_
    exact nomatch (h i).symm.trans (mem_heldLetters.mp hil)

/-- With every letter record FREE the next letter takes the counter's value. -/
theorem nextNumber_of_free {s : State} (h : ∀ i : LetterIx, s.letters[i] = none) : s.nextNumber = s.mgmt.letterCounter := by
  rw [State.nextNumber, State.numbersHeld, heldLetters_eq_nil.mpr h]
  rfl

/-- Settles O41: the value and the letter records decide, and the reset event keeps the counter. -/
theorem setLetterBaseSetsTheCounter : Obligations.SetLetterBaseSetsTheCounter := by
  unfold Obligations.SetLetterBaseSetsTheCounter
  refine ⟨fun s r hi hr => ⟨fun hzero => ?_, fun hvalue ⟨i, hletter⟩ => ?_, fun hvalue hfree => ⟨?_, ?_⟩⟩,
    fun s r hi hr hroom => ?_, fun s r f rest hheld hkind hok hcontrol howed => ?_⟩
  · exact congrArg _ (execute_refused hi hr (by decide) (if_pos hzero))
  · have hheld : ¬ s.popRequest.heldLetters.isEmpty = true := fun h =>
      hletter (heldLetters_eq_nil.mp (List.isEmpty_iff.mp h) i)
    exact congrArg _ (execute_refused hi hr (by decide) ((if_neg hvalue).trans (if_neg hheld)))
  · have hnone : s.popRequest.heldLetters.isEmpty = true := List.isEmpty_iff.mpr (heldLetters_eq_nil.mpr hfree)
    exact congrArg _ (execute_done hi hr (by decide) (g := fun t => t.modMgmt (fun m => { m with letterCounter := fieldAt r.fields 0 4 }))
      (fun _ _ _ _ => rfl) ((if_neg hvalue).trans (if_pos hnone)))
  · refine nextNumber_of_free fun i => ?_
    change (requestAnswered s r .ok []).letters[i] = none
    rw [requestAnswered_letters]
    exact hfree i
  · exact ⟨_, exec_softReset_room hi hr hroom, softReset_letterCounter _⟩
  · exact ⟨_, exec_poolFrameBoundary_heldReset hheld hkind hok hcontrol howed, softReset_letterCounter _⟩

/-! ### The kinds that a mask names (R176) -/

theorem tally_setTally (r : FaultRecord) (j k : FaultKind) (t : FaultTally) :
    (r.setTally j t).tally k = if k = j then t else r.tally k := by
  cases j <;> cases k <;> rfl

/-- The tallies of those kinds of a list that a test names are set, and no other. -/
theorem tally_setTallies (named : FaultKind → Bool) (t : FaultTally) (ks : List FaultKind) (r : FaultRecord) (k : FaultKind) :
    (ks.foldl (fun r j => if named j then r.setTally j t else r) r).tally k = if k ∈ ks ∧ named k then t else r.tally k := by
  induction ks generalizing r with
  | nil => simp
  | cons j rest ih =>
    rw [List.foldl_cons, ih]
    by_cases hk : k = j
    · subst hk
      by_cases hn : named k <;> simp [hn, tally_setTally]
    · by_cases hn : named j <;> simp [hn, hk, tally_setTally]

theorem mem_allKinds (k : FaultKind) : k ∈ FaultKind.all := by cases k <;> decide

theorem tally_withContext (r : FaultRecord) (c : Option FaultContext) (k : FaultKind) :
    ({ r with context := c } : FaultRecord).tally k = r.tally k := by
  cases k <;> rfl

theorem tally_clear (r : FaultRecord) (mask : Nat) (k : FaultKind) :
    (r.clear mask).tally k = if maskNames mask k then { seen := false, count := 0 } else r.tally k := by
  rw [FaultRecord.clear, tally_withContext, tally_setTallies]
  simp [mem_allKinds]

/-- What a CLEAR-FAULTS does to the Fault Record and the owed notices (R176). -/
def faultsCleared (mask : Nat) (s : State) : State :=
  s.modMgmt (fun m => { m with faults := m.faults.clear mask, owed := m.owed.filter (fun n => !maskNames mask n.kind) })

theorem faultsCleared_keepsReplies (mask : Nat) : KeepsReplies (faultsCleared mask) := fun _ _ _ _ => rfl

/-- Settles O42: a kind's tally is reset exactly where the mask names the kind. -/
theorem clearFaultsClearsTheKindsNamed : Obligations.ClearFaultsClearsTheKindsNamed := by
  unfold Obligations.ClearFaultsClearsTheKindsNamed
  intro s r b hi hr hb
  have hfield : fieldAt r.fields 0 1 = b.toNat := by rw [hb, fieldAt_one]
  refine ⟨fun hrange => ?_, fun hrange => ?_⟩
  · exact congrArg _ (execute_refused hi hr (by decide) (if_pos (hfield ▸ hrange)))
  · have hact : actClearFaults r.fields s.popRequest = .done (faultsCleared b.toNat s.popRequest) [] := by
      rw [actClearFaults, hfield, if_neg (by omega)]
      rfl
    refine ⟨_, congrArg Host.Outcome.next (execute_done hi hr (by decide) (faultsCleared_keepsReplies b.toNat) hact),
      fun k => ?_, ?_, ?_, rfl⟩
    · rw [faultsCleared, State.modMgmt_mgmt, tally_clear, requestAnswered_faults]
      rfl
    · rw [faultsCleared, State.modMgmt_mgmt, requestAnswered_faults]
      rfl
    · rw [faultsCleared, State.modMgmt_mgmt, requestAnswered_owed]
      rfl

/-! ### The notice level (R177) -/

theorem levelOfCode_none {n : Nat} (h : 3 < n) : levelOfCode n = none := by
  obtain ⟨m, rfl⟩ := Nat.exists_eq_add_of_lt h
  rw [show 3 + m + 1 = m + 4 by omega]
  rfl

theorem levelOfCode_level {b : Byte} {lv : NoticeLevel}
    (h : (b, lv) ∈ [(0x00#8, NoticeLevel.off), (0x01#8, .fatal), (0x02#8, .serious), (0x03#8, .all)]) :
    levelOfCode b.toNat = some lv := by
  simp only [List.mem_cons, Prod.mk.injEq, List.not_mem_nil, or_false] at h
  rcases h with ⟨rfl, rfl⟩ | ⟨rfl, rfl⟩ | ⟨rfl, rfl⟩ | ⟨rfl, rfl⟩ <;> rfl

/-- Settles O43: the code decides, and the reset event keeps the level. -/
theorem setNoticesSetsTheLevel : Obligations.SetNoticesSetsTheLevel := by
  unfold Obligations.SetNoticesSetsTheLevel
  refine ⟨fun s r b hi hr hb => ?_, fun s => ⟨_, rfl, rfl⟩, fun s r hi hr hroom => ?_, fun s r f rest hheld hkind hok hcontrol howed => ?_⟩
  · have hfield : fieldAt r.fields 0 1 = b.toNat := by rw [hb, fieldAt_one]
    refine ⟨fun hrange => ?_, fun lv hlv => ?_⟩
    · exact congrArg _ (execute_refused hi hr (by decide) (by rw [actSetNotices, hfield, levelOfCode_none hrange]))
    · refine congrArg _ ((execute_done hi hr (by decide)
        (g := fun t => t.modMgmt (fun m => { m with level := lv, owed := m.owed.filter (fun n => lv.announces n.kind) }))
        (fun _ _ _ _ => rfl) (by rw [actSetNotices, hfield, levelOfCode_level hlv])).trans ?_)
      rw [State.modMgmt, requestAnswered_owed]
  · exact ⟨_, exec_softReset_room hi hr hroom, softReset_level _⟩
  · exact ⟨_, exec_poolFrameBoundary_heldReset hheld hkind hok hcontrol howed, softReset_level _⟩

end Sys2Proof.Requests
end

section
/-! The queue of the waiting commands and the shared operations: no operation on block memory, on letters, on the drain queue or on a
channel's capture ring touches the queue (log entry 2). -/

namespace Sys2Proof.WaitingCommands

open Sys2Proof Sys2Proof.Machine Sys2Proof.DrainAndLinks

/-- Operations that each leave the queue be leave it be one after another. -/
theorem foldl_pending {α : Type} {f : State → α → State} (h : ∀ s a, (f s a).pending = s.pending) (as : List α) (s : State) :
    (as.foldl f s).pending = s.pending := by
  induction as generalizing s with
  | nil => rfl
  | cons a rest ih => exact (ih (f s a)).trans (h s a)

/-- An operation that leaves the queue be and gives a result beside its state leaves it be in the state found with a result. -/
theorem pending_of_pair {α : Type} {s t : State} {a : α} {p : State × α} (h : p = (t, a)) (hp : p.1.pending = s.pending) :
    t.pending = s.pending := by
  rw [← hp, h]

/-! ### The tables -/

@[simp] theorem upsets_pending (s : State) (us : List Upset) : (s.upsets us).pending = s.pending := by
  rw [upsets_frame]

@[simp] theorem applyPendingCopy_pending (s : State) (ch : Chan) : (s.applyPendingCopy ch).1.pending = s.pending := by
  rw [applyPendingCopy_frame]

@[simp] theorem takePendingCopy_pending (s : State) (ch : Chan) : (s.takePendingCopy ch).pending = s.pending := by
  rw [takePendingCopy_frame]

@[simp] theorem readEntry_pending (s : State) (ch : Chan) : (s.readEntry ch).1.pending = s.pending := by
  rw [readEntry_frame]

@[simp] theorem readSlot_pending (s : State) (k : Slot) (number : Option Nat) (ch : Chan) (pos : Option Nat) :
    (s.readSlot k number ch pos).1.pending = s.pending := by
  rw [readSlot_frame]

/-! ### Block memory and detections -/

@[simp] theorem request_pending (s : State) (a : Access) : (s.request a).pending = s.pending := by
  rw [request_frame]

@[simp] theorem placeLoc_pending (s : State) (n : Nat) : (s.placeLoc n).pending = s.pending := by
  rw [placeLoc_frame]

@[simp] theorem handBack_pending (s : State) (n : Nat) : (s.handBack n).pending = s.pending := by
  rw [handBack_frame]

@[simp] theorem handBackAll_pending (s : State) (ns : List Nat) : (s.handBackAll ns).pending = s.pending := by
  rw [handBackAll_frame]

@[simp] theorem completeRead_pending (s : State) (n : Nat) (ctx : Option ReadContext) (found : List BitError) :
    (s.completeRead n ctx found).pending = s.pending := by
  rw [completeRead_frame]

@[simp] theorem detect_pending (s : State) (c : FaultContext) : (s.detect c).pending = s.pending := rfl

@[simp] theorem recordDetection_pending (s : State) (c : FaultContext) : (s.recordDetection c).pending = s.pending := by
  rw [recordDetection_frame]

@[simp] theorem retire_pending (s : State) (n : Nat) : (s.retire n).pending = s.pending := by
  unfold State.retire
  split <;> rfl

/-! ### Replies and reports -/

@[simp] theorem landKey_pending (s : State) (ch : Chan) : (s.landKey ch).pending = s.pending := rfl

@[simp] theorem answer_pending (s : State) (ch : Chan) (code : Byte) (result : KeyResult) (v : LetterView) :
    (s.answer ch code result v).pending = s.pending := by
  rw [answer_frame]

@[simp] theorem tell_pending (s : State) (ch : Chan) (code : Byte) (result : KeyResult) (cause : Option StopCause) (v : LetterView) :
    (s.tell ch code result cause v).pending = s.pending := rfl

@[simp] theorem askCapture_pending (s : State) (ch : Chan) (r : CaptureRequest) : (s.askCapture ch r).pending = s.pending := rfl

@[simp] theorem report_pending (s : State) (ch : Chan) (r : CoderReport) : (s.report ch r).pending = s.pending := rfl

/-! ### The Drain Engine -/

@[simp] theorem leaveIssue_pending (s : State) (i : LetterIx) : (s.leaveIssue i).pending = s.pending := rfl

@[simp] theorem takeDrainStart_pending (s : State) : s.takeDrainStart.pending = s.pending := by
  rw [takeDrainStart_frame]

@[simp] theorem takeSuspension_pending (s : State) : s.takeSuspension.pending = s.pending := by
  rw [takeSuspension_frame]

@[simp] theorem takeAbort_pending (s : State) : s.takeAbort.pending = s.pending := by
  rw [takeAbort_frame]

@[simp] theorem queueGrew_pending (s : State) : s.queueGrew.pending = s.pending := by
  rw [queueGrew_frame]

@[simp] theorem endDelivery_pending (s : State) (d : Delivery) (f : PartCounters → PartCounters) :
    (s.endDelivery d f).pending = s.pending := by
  rw [endDelivery_frame]

@[simp] theorem drainActs_pending (s : State) : s.drainActs.pending = s.pending := by
  unfold State.drainActs
  split
  · exact takeDrainStart_pending s
  · split
    · exact takeAbort_pending s
    · exact takeSuspension_pending s

/-! ### Letters -/

@[simp] theorem freeLetter_pending (s : State) (i : LetterIx) : (s.freeLetter i).pending = s.pending := by
  rw [freeLetter_frame]

@[simp] theorem dropCurrent_pending (s : State) (ch : Chan) : (s.dropCurrent ch).pending = s.pending := rfl

@[simp] theorem tellNoLive_pending (s : State) (ch : Chan) : (s.tellNoLive ch).pending = s.pending := rfl

@[simp] theorem closeCurrent_pending (s : State) (ch : Chan) : (s.closeCurrent ch).pending = s.pending := by
  rw [closeCurrent_frame]

@[simp] theorem forceStopTake_pending (s : State) (ch : Chan) (c : StopCause) : (s.forceStopTake ch c).pending = s.pending := by
  rw [forceStopTake_frame]

@[simp] theorem entryStop_pending (s : State) (ch : Chan) : (s.entryStop ch).pending = s.pending := by
  rw [entryStop_frame]

@[simp] theorem startIdle_pending (s : State) (ch : Chan) : (s.startIdle ch).pending = s.pending := by
  rw [startIdle_frame]

@[simp] theorem enterOpen_pending (s : State) (ch : Chan) (i : LetterIx) : (s.enterOpen ch i).pending = s.pending :=
  startIdle_pending (s.setPhase i .opened) ch

@[simp] theorem stopReview_pending (s : State) (ch : Chan) : (s.stopReview ch).pending = s.pending := rfl

@[simp] theorem deviceStopsReview_pending (s : State) (ch : Chan) (result : KeyResult) (cause : StopCause) :
    (s.deviceStopsReview ch result cause).pending = s.pending := by
  unfold State.deviceStopsReview
  split
  · rfl
  · split
    · simp
    · rfl

/-! ### Capture and the start of a take -/

@[simp] theorem captureFrame_pending (s : State) (ch : Chan) (seq : Word16) (xs : List Sample) :
    (s.captureFrame ch seq xs).pending = s.pending := by
  rw [captureFrame_frame]

@[simp] theorem endOfTakeCheck_pending (s : State) (ch : Chan) : (s.endOfTakeCheck ch).pending = s.pending := by
  rw [endOfTakeCheck_frame]

@[simp] theorem takeCaptureRequest_pending (s : State) (ch : Chan) (r : CaptureRequest) :
    (s.takeCaptureRequest ch r).pending = s.pending := by
  rw [takeCaptureRequest_frame]

@[simp] theorem flushCapture_pending (s : State) (ch : Chan) : (s.flushCapture ch).pending = s.pending :=
  foldl_pending (fun s r => takeCaptureRequest_pending s ch r) _ _

@[simp] theorem coderTakeStart_pending (s : State) (ch : Chan) (k : Slot) (number serial : Nat) :
    (s.coderTakeStart ch k number serial).pending = s.pending := by
  unfold State.coderTakeStart
  dsimp only
  split <;> (rename_i h; simpa using pending_of_pair h (readSlot_pending ..))

@[simp] theorem startTake_pending (s : State) (ch : Chan) (i : LetterIx) (l : Letter) (mode : TakeMode) :
    (s.startTake ch i l mode).pending = s.pending := by
  simp [State.startTake]

end Sys2Proof.WaitingCommands
end

section
/-! The queue of the waiting commands and the Player, the Coder, the Block Memory Controller and the Drain Engine (log entry 2). -/

namespace Sys2Proof.WaitingCommands

open Sys2Proof Sys2Proof.Machine Sys2Proof.DrainAndLinks

/-! ### The Player -/

@[simp] theorem obtain_pending (s : State) (ch : Chan) : (s.obtain ch).pending = s.pending := by
  unfold State.obtain
  split
  · rfl
  · split
    · split
      · rfl
      · dsimp only
        split <;> simp
    · rfl

@[simp] theorem handReview_pending (s : State) (ch : Chan) (f : ReviewFrame) : (s.handReview ch f).pending = s.pending := by
  unfold State.handReview
  split <;> rfl

@[simp] theorem sendFrame_pending (s : State) (ch : Chan) : (s.sendFrame ch).pending = s.pending := by
  unfold State.sendFrame
  split
  · rfl
  · split
    · rfl
    · dsimp only
      split <;> simp

@[simp] theorem playReady_pending (s : State) (ch : Chan) : (s.playReady ch).pending = s.pending := by
  unfold State.playReady
  split
  · rfl
  · split
    · dsimp only
      split <;> simp
    · rfl

@[simp] theorem startReview_pending (s : State) (ch : Chan) (i : LetterIx) (l : Letter) :
    (s.startReview ch i l).pending = s.pending := by
  simp [State.startReview]

@[simp] theorem blockReady_pending (s : State) (ch : Chan) (a : BlockAudio) : (s.blockReady ch a).pending = s.pending := by
  simp [State.blockReady]

@[simp] theorem paceFrame_pending (s : State) (ch : Chan) (sent : Nat) : (s.paceFrame ch sent).pending = s.pending := by
  unfold State.paceFrame
  dsimp only
  split <;> simp

@[simp] theorem endReview_pending (s : State) (ch : Chan) (i : LetterIx) (l : Letter) : (s.endReview ch i l).pending = s.pending := by
  simp [State.endReview]

@[simp] theorem paceStep_pending (s : State) (ch : Chan) (r : Review) : (s.paceStep ch r).pending = s.pending := by
  unfold State.paceStep
  split
  · rfl
  · split
    · exact paceFrame_pending s ch _
    · split
      · split
        · exact endReview_pending s ch _ _
        · rfl
      · rfl

@[simp] theorem decodeFor_pending (s : State) (ch : Chan) (l : Letter) (pos : Nat) (b : CodedBlock) :
    (s.decodeFor ch l pos b).pending = s.pending := by
  unfold State.decodeFor
  split
  · rename_i h
    exact (blockReady_pending _ _ _).trans (pending_of_pair h (readSlot_pending ..))
  · rename_i h
    exact pending_of_pair h (readSlot_pending ..)

@[simp] theorem playerRead_pending (s : State) (ch : Chan) (r : ReadResult) (b : CodedBlock) :
    (s.playerRead ch r b).pending = s.pending := by
  unfold State.playerRead
  split
  · rfl
  · split
    · split <;> simp
    · rfl

/-! ### The Coder -/

@[simp] theorem discardBlock_pending (s : State) (ch : Chan) : (s.discardBlock ch).pending = s.pending := rfl

@[simp] theorem serveGap_pending (s : State) (ch : Chan) (c : GapCause) (n : Nat) : (s.serveGap ch c n).pending = s.pending :=
  foldl_pending (fun s r => report_pending s ch r) _ s

@[simp] theorem beginWrite_pending (s : State) (ch : Chan) (P : Profile) (loc : Nat) (free : List (Nat × Nat)) (xs : List Sample)
    (filled padded : Bool) : (s.beginWrite ch P loc free xs filled padded).pending = s.pending := by
  simp [State.beginWrite]

@[simp] theorem serveCoded_pending (s : State) (ch : Chan) (P : Profile) (xs : List Sample) (filled padded : Bool) :
    (s.serveCoded ch P xs filled padded).pending = s.pending := by
  unfold State.serveCoded
  split
  · split <;> simp
  · rfl

@[simp] theorem judge_pending (s : State) (ch : Chan) (P : Profile) (xs : List Sample) (filled padded : Bool) :
    (s.judge ch P xs filled padded).pending = s.pending := by
  unfold State.judge
  dsimp only
  split <;> simp

@[simp] theorem serveBlock_pending (s : State) (ch : Chan) (xs : List Sample) (filled padded : Bool) :
    (s.serveBlock ch xs filled padded).pending = s.pending := by
  unfold State.serveBlock
  split
  · rfl
  · split
    · rename_i h
      exact (judge_pending _ _ _ _ _ _).trans (pending_of_pair h (readSlot_pending ..))
    · rename_i h
      simpa using pending_of_pair h (readSlot_pending ..)

@[simp] theorem serveEntry_pending (s : State) (ch : Chan) (e : RingEntry) : (s.serveEntry ch e).pending = s.pending := by
  cases e with
  | block xs filled padded => exact serveBlock_pending s ch xs filled padded
  | gap c n => exact serveGap_pending s ch c n

@[simp] theorem serve_pending (s : State) (ch : Chan) : (s.serve ch).pending = s.pending := by
  unfold State.serve
  split
  · rfl
  · simp

@[simp] theorem writeDone_pending (s : State) (w : CodedWrite) : (s.writeDone w).pending = s.pending := by
  simp [State.writeDone]

/-! ### The Block Memory Controller -/

@[simp] theorem abandonWrite_pending (s : State) : s.abandonWrite.pending = s.pending := by
  unfold State.abandonWrite
  split
  · rfl
  · simp

@[simp] theorem enterFailed_pending (s : State) (a : Access) : (s.enterFailed a).pending = s.pending := by
  simp [State.enterFailed, foldl_pending placeLoc_pending]

@[simp] theorem visit_pending (s : State) : s.visit.pending = s.pending := by
  unfold State.visit
  dsimp only
  split <;> simp

/-! ### The records of a delivery -/

@[simp] theorem handRecord_pending (s : State) (r : DrainRecord) : (s.handRecord r).pending = s.pending := rfl

@[simp] theorem handBody_pending (s : State) (d : Delivery) (l : Letter) (r : DrainRecord) (blocks : Nat) (damaged : Bool) :
    (s.handBody d l r blocks damaged).pending = s.pending := rfl

@[simp] theorem formed_pending (s : State) (r : ReadResult) (b : CodedBlock) : (s.formed r b).pending = s.pending := by
  unfold State.formed
  split
  · split
    · rfl
    · dsimp only
      split <;> simp
  · rfl

end Sys2Proof.WaitingCommands
end
section
/-! The queue of the waiting commands and the resets, the Management Handler and the trunk links (log entry 2). -/

namespace Sys2Proof.WaitingCommands

open Sys2Proof Sys2Proof.Machine

/-! ### The reset event and the control queue -/

@[simp] theorem resetCopy_pending (s : State) (ch : Chan) : (s.resetCopy ch).pending = s.pending := by
  unfold State.resetCopy
  split <;> (rename_i h; simpa using pending_of_pair h (applyPendingCopy_pending s ch))

@[simp] theorem softReset_pending (s : State) : s.softReset.pending = s.pending :=
  foldl_pending resetCopy_pending _ s.resetBlocks

@[simp] theorem queueReply_pending (s : State) (r : Reply) : (s.queueReply r).pending = s.pending := rfl

@[simp] theorem joinReply_pending (s : State) (r : Reply) : (s.joinReply r).pending = s.pending := by
  unfold State.joinReply
  split <;> simp

@[simp] theorem handReply_pending (s : State) (r : Reply) : (s.handReply r).pending = s.pending := by
  unfold State.handReply
  split <;> simp

@[simp] theorem handControl_pending (s : State) : s.handControl.pending = s.pending := by
  unfold State.handControl
  split
  · rfl
  · split
    · exact joinReply_pending s _
    · rfl

@[simp] theorem poolBoundary_pending (s : State) : s.poolBoundary.pending = s.pending := by
  unfold State.poolBoundary
  split
  · simp
  · split
    · rfl
    · split
      · split <;> rfl
      · rfl

/-! ### The execution of a request -/

@[simp] theorem popRequest_pending (s : State) : s.popRequest.pending = s.pending := rfl

/-- A request whose own rule leaves the queue be is executed without a change to it. -/
theorem execute_pending {act : List Byte → State → Executed} (hact : ∀ bs t, (act bs t).state.pending = t.pending) (s : State)
    (kind : Byte) : (s.execute kind act).pending = s.pending := by
  unfold State.execute
  split
  · rfl
  · split
    · dsimp only
      split <;> simp [hact]
    · rfl

@[simp] theorem refused_state (s : State) (status : Status) : (Executed.refused s status).state = s := rfl

@[simp] theorem done_state (s : State) (fields : List Byte) : (Executed.done s fields).state = s := rfl

theorem actReadChannel_pending (bs : List Byte) (s : State) : (actReadChannel bs s).state.pending = s.pending := by
  unfold actReadChannel
  split <;> rfl

theorem actWriteChannel_pending (bs : List Byte) (s : State) : (actWriteChannel bs s).state.pending = s.pending := by
  unfold actWriteChannel
  split
  · split <;> rfl
  · rfl

theorem actReadProfile_pending (bs : List Byte) (s : State) : (actReadProfile bs s).state.pending = s.pending := by
  unfold actReadProfile
  split <;> rfl

theorem actWriteProfile_pending (bs : List Byte) (s : State) : (actWriteProfile bs s).state.pending = s.pending := by
  unfold actWriteProfile
  split
  · rfl
  · split
    · rfl
    · split <;> rfl

theorem actClearProfile_pending (bs : List Byte) (s : State) : (actClearProfile bs s).state.pending = s.pending := by
  unfold actClearProfile
  split
  · rfl
  · split
    · rfl
    · split <;> rfl

theorem actReadLetter_pending (bs : List Byte) (s : State) : (actReadLetter bs s).state.pending = s.pending := by
  unfold actReadLetter
  split <;> rfl

theorem actListLetters_pending (bs : List Byte) (s : State) : (actListLetters bs s).state.pending = s.pending := by
  unfold actListLetters
  split
  · rfl
  · split
    · rfl
    · split <;> rfl

theorem actForceClose_pending (bs : List Byte) (s : State) : (actForceClose bs s).state.pending = s.pending := by
  unfold actForceClose
  split
  · rfl
  · split
    · rfl
    · exact entryStop_pending s _

theorem actAbortLetter_pending (bs : List Byte) (s : State) : (actAbortLetter bs s).state.pending = s.pending := by
  unfold actAbortLetter
  split
  · rfl
  · split
    · simp
    · split <;> simp
    · split <;> rfl
    · rfl

theorem actClearFaults_pending (bs : List Byte) (s : State) : (actClearFaults bs s).state.pending = s.pending := by
  unfold actClearFaults
  split <;> rfl

theorem actSetNotices_pending (bs : List Byte) (s : State) : (actSetNotices bs s).state.pending = s.pending := by
  unfold actSetNotices
  split <;> rfl

theorem actReadCounters_pending (bs : List Byte) (s : State) : (actReadCounters bs s).state.pending = s.pending := by
  unfold actReadCounters
  split <;> rfl

theorem actClearCounters_pending (bs : List Byte) (s : State) : (actClearCounters bs s).state.pending = s.pending := by
  unfold actClearCounters
  split <;> rfl

theorem actReleaseDrain_pending (bs : List Byte) (s : State) : (actReleaseDrain bs s).state.pending = s.pending := by
  unfold actReleaseDrain
  split <;> simp

theorem actSetLetterBase_pending (bs : List Byte) (s : State) : (actSetLetterBase bs s).state.pending = s.pending := by
  unfold actSetLetterBase
  split
  · rfl
  · split <;> rfl

theorem actSetPatrol_pending (bs : List Byte) (s : State) : (actSetPatrol bs s).state.pending = s.pending := by
  unfold actSetPatrol
  split
  · rfl
  · split <;> rfl

/-- A SOFT-RESET's own rule has no effect: the reset is taken with its reply (R180). -/
theorem executeSoftReset_pending (s : State) : (s.execute 0x14#8 actSoftReset).pending = s.pending :=
  execute_pending (fun _ _ => rfl) s _

@[simp] theorem takeReset_pending (s : State) : s.takeReset.pending = s.pending := by
  unfold State.takeReset
  split
  · split <;> simp
  · exact executeSoftReset_pending s

/-! ### Receive framing -/

@[simp] theorem setRx_pending (s : State) (link : Link) (rx : Receiver) : (s.setRx link rx).pending = s.pending := by
  cases link <;> rfl

@[simp] theorem huntEntered_pending (s : State) (link : Link) : (s.huntEntered link).pending = s.pending := by
  cases link with
  | station => exact foldl_pending (fun s ch => by simp) _ _
  | pool => rfl

@[simp] theorem badFrame_pending (s : State) (link : Link) : (s.badFrame link).pending = s.pending := by
  unfold State.badFrame
  dsimp only
  split <;> split <;> simp

/-! ### Station frames -/

@[simp] theorem forward_pending (s : State) (f : BypassFrame) : (s.forward f).pending = s.pending := by
  unfold State.forward
  split <;> rfl

@[simp] theorem classifyAudio_pending (s : State) (b : Byte) (seq : Word16) (xs : List Sample) :
    (s.classifyAudio b seq xs).pending = s.pending := by
  unfold State.classifyAudio
  split
  · rfl
  · split
    · rfl
    · split
      · rename_i h
        simpa using pending_of_pair h (readEntry_pending s _)
      · rename_i s1 st h
        have hread : s1.pending = s.pending := pending_of_pair h (readEntry_pending s _)
        split
        · split <;> simp [hread]
        · simp [hread]
        · simp [hread]

@[simp] theorem classifyKey_pending (s : State) (ch : Chan) (code : Byte) (count : Word16) :
    (s.classifyKey ch code count).pending = s.pending := by
  unfold State.classifyKey
  split
  · rfl
  · dsimp only
    split <;> simp

@[simp] theorem admitKey_pending (s : State) (b code : Byte) (count : Word16) : (s.admitKey b code count).pending = s.pending := by
  unfold State.admitKey
  split
  · split <;> rfl
  · split <;> simp

@[simp] theorem deliverStation_pending (s : State) (body : List Byte) : (s.deliverStation body).pending = s.pending := by
  unfold State.deliverStation
  dsimp only
  split
  · split <;> simp
  · rfl

/-! ### Pool frames -/

@[simp] theorem takeRequest_pending (s : State) (payload : List Byte) : (s.takeRequest payload).pending = s.pending := by
  unfold State.takeRequest
  split <;> rfl

@[simp] theorem setFlow_pending (s : State) (f : Flow) : (s.setFlow f).pending = s.pending := rfl

@[simp] theorem deliverPool_pending (s : State) (body : List Byte) : (s.deliverPool body).pending = s.pending := by
  unfold State.deliverPool
  dsimp only
  split
  · split
    · rfl
    · split
      · split <;> simp
      · simp
  · rfl

/-! ### The arrival of bytes -/

@[simp] theorem deliver_pending (s : State) (link : Link) (body : List Byte) : (s.deliver link body).pending = s.pending := by
  cases link with
  | station => exact deliverStation_pending s body
  | pool => exact deliverPool_pending s body

@[simp] theorem goodFrame_pending (s : State) (link : Link) (direct : Bool) (body : List Byte) :
    (s.goodFrame link direct body).pending = s.pending := by
  unfold State.goodFrame
  dsimp only
  split
  · simp
  · cases link <;> simp

@[simp] theorem listen_pending (s : State) (link : Link) (bytes : List Byte) : (s.listen link bytes).pending = s.pending := by
  unfold State.listen
  split <;> simp

@[simp] theorem listenAll_pending (fuel : Nat) (s : State) (link : Link) (bytes : List Byte) :
    (s.listenAll fuel link bytes).pending = s.pending := by
  induction fuel generalizing s bytes with
  | zero => rfl
  | succ fuel ih =>
    unfold State.listenAll
    split
    · exact listen_pending s link bytes
    · exact (ih _ _).trans (listen_pending s link bytes)

@[simp] theorem listenOut_pending (s : State) (link : Link) (bytes : List Byte) : (s.listenOut link bytes).pending = s.pending :=
  listenAll_pending ..

@[simp] theorem loseSignal_pending (s : State) (link : Link) : (s.loseSignal link).pending = s.pending := by
  unfold State.loseSignal
  dsimp only
  split
  · split <;> simp
  · simp

@[simp] theorem hear_pending (s : State) (link : Link) (bytes : List Byte) (us : List Upset) :
    (s.hear link bytes us).pending = s.pending := by
  unfold State.hear
  split <;> simp

end Sys2Proof.WaitingCommands
end

section
/-! The queue of the waiting commands and the Letter Controller: the keys and the reports of the other blocks (log entry 2). -/

namespace Sys2Proof.WaitingCommands

open Sys2Proof Sys2Proof.Machine

/-! ### The keys' own rules -/

@[simp] theorem openLetter_pending (s : State) (ch : Chan) (st : Settings) (code : Byte) (mode : TakeMode) :
    (s.openLetter ch st code mode).pending = s.pending := by
  unfold State.openLetter
  split <;> simp

@[simp] theorem keyRecord_pending (s : State) (ch : Chan) (st : Settings) (code : Byte) (mode : TakeMode) :
    (s.keyRecord ch st code mode).pending = s.pending := by
  unfold State.keyRecord
  split
  · exact openLetter_pending ..
  · split
    · split <;> simp
    · simp

@[simp] theorem keyStop_pending (s : State) (ch : Chan) (code : Byte) : (s.keyStop ch code).pending = s.pending := by
  unfold State.keyStop
  split
  · simp
  · split <;> simp

@[simp] theorem releaseTake_pending (s : State) (t : Take) : (s.releaseTake t).pending = s.pending :=
  handBackAll_pending ..

@[simp] theorem keyCancel_pending (s : State) (ch : Chan) (code : Byte) : (s.keyCancel ch code).pending = s.pending := by
  unfold State.keyCancel
  split
  · simp
  · split <;> simp

@[simp] theorem implicitStop_pending (s : State) (ch : Chan) (i : LetterIx) (t : Take) (k : Key) :
    (s.implicitStop ch i t k).pending = s.pending := rfl

@[simp] theorem moveCursor_pending (s : State) (ch : Chan) (i : LetterIx) (l : Letter) (h : HandsetKey) (k : Key) :
    (s.moveCursor ch i l h k).pending = s.pending := by
  unfold State.moveCursor
  split <;> simp

@[simp] theorem keyMove_pending (s : State) (ch : Chan) (h : HandsetKey) (k : Key) : (s.keyMove ch h k).pending = s.pending := by
  unfold State.keyMove
  split
  · simp
  · split <;> simp

@[simp] theorem keyReview_pending (s : State) (ch : Chan) (code : Byte) : (s.keyReview ch code).pending = s.pending := by
  unfold State.keyReview
  split
  · simp
  · split
    · split
      · simp
      · split <;> simp
    · simp

@[simp] theorem keyEnd_pending (s : State) (ch : Chan) (k : Key) : (s.keyEnd ch k).pending = s.pending := by
  unfold State.keyEnd
  split
  · simp
  · split <;> simp

@[simp] theorem changeClass_pending (s : State) (i : LetterIx) (l : Letter) (c : Priority) :
    (s.changeClass i l c).1.pending = s.pending := by
  unfold State.changeClass
  split
  · dsimp only
    split <;> simp
  · rfl

@[simp] theorem keyClass_pending (s : State) (ch : Chan) (code : Byte) (c : Priority) :
    (s.keyClass ch code c).pending = s.pending := by
  unfold State.keyClass
  split
  · simp
  · split
    · simp
    · split
      · simp
      · split <;> (rename_i h; exact (answer_pending ..).trans (pending_of_pair h (changeClass_pending ..)))

@[simp] theorem withdraw_pending (s : State) (i : LetterIx) (l : Letter) : (s.withdraw i l).1.pending = s.pending := by
  unfold State.withdraw
  split <;> rfl

@[simp] theorem keyRecall_pending (s : State) (ch : Chan) (code : Byte) : (s.keyRecall ch code).pending = s.pending := by
  unfold State.keyRecall
  split
  · simp
  · split
    · simp
    · split
      · simp
      · split <;> (rename_i h; simpa using pending_of_pair h (withdraw_pending ..))

@[simp] theorem keyArm_pending (s : State) (ch : Chan) (code : Byte) : (s.keyArm ch code).pending = s.pending := by
  unfold State.keyArm
  split
  · simp
  · split <;> simp

@[simp] theorem keyDiscard_pending (s : State) (ch : Chan) (code : Byte) (armed : Bool) :
    (s.keyDiscard ch code armed).pending = s.pending := by
  unfold State.keyDiscard
  split
  · simp
  · split <;> simp

/-! ### The evaluation of a key -/

@[simp] theorem keyRule_pending (s : State) (ch : Chan) (st : Settings) (armed : Bool) (k : Key) :
    (s.keyRule ch st armed k).pending = s.pending := by
  unfold State.keyRule
  split <;> simp

@[simp] theorem restartIdle_pending (s : State) (ch : Chan) : (s.restartIdle ch).pending = s.pending := by
  unfold State.restartIdle
  split
  · split <;> simp
  · rfl

@[simp] theorem keyInFinishing_pending (s : State) (ch : Chan) (armed : Bool) (l : Letter) (k : Key) :
    (s.keyInFinishing ch armed l k).pending = s.pending := by
  unfold State.keyInFinishing
  split
  · simp
  · split <;> simp

@[simp] theorem keySteps_pending (s : State) (ch : Chan) (st : Settings) (armed : Bool) (k : Key) :
    (s.keySteps ch st armed k).pending = s.pending := by
  unfold State.keySteps
  dsimp only
  split
  · split
    · simp
    · split <;> simp
  · split <;> simp

@[simp] theorem evalKey_pending (s : State) (ch : Chan) (k : Key) : (s.evalKey ch k).pending = s.pending := by
  unfold State.evalKey
  dsimp only
  split
  · rename_i s1 st h
    have hread : s1.pending = s.pending := pending_of_pair h (readEntry_pending ..)
    split <;> simp [hread]
  · rename_i h
    simpa using pending_of_pair h (readEntry_pending ..)

@[simp] theorem takeKey_pending (s : State) (ch : Chan) (us : List Upset) (h : Option HandsetKey) :
    (s.takeKey ch us h).pending = s.pending := by
  unfold State.takeKey
  split
  · rfl
  · split <;> simp

/-! ### Block outcomes and the end of a take -/

@[simp] theorem popReport_pending (s : State) (ch : Chan) : (s.popReport ch).pending = s.pending := rfl

@[simp] theorem dropOutcome_pending (s : State) (o : BlockOutcome) : (s.dropOutcome o).pending = s.pending := by
  cases o <;> simp [State.dropOutcome]

@[simp] theorem refuseOutcome_pending (s : State) (ch : Chan) (o : BlockOutcome) (c : StopCause) :
    (s.refuseOutcome ch o c).pending = s.pending := by
  simp [State.refuseOutcome]

@[simp] theorem appendTo_pending (s : State) (i : LetterIx) (t : Take) (o : BlockOutcome) :
    (s.appendTo i t o).pending = s.pending := rfl

@[simp] theorem takeOutcome_pending (s : State) (ch : Chan) (serial : Nat) (o : BlockOutcome) :
    (s.takeOutcome ch serial o).pending = s.pending := by
  unfold State.takeOutcome
  split
  · simp
  · split
    · simp
    · split <;> simp

@[simp] theorem splice_pending (s : State) (i : LetterIx) (l : Letter) (t : Take) : (s.splice i l t).pending = s.pending :=
  handBackAll_pending ..

@[simp] theorem applyHeld_pending (s : State) (ch : Chan) : (s.applyHeld ch).pending = s.pending := by
  unfold State.applyHeld
  split <;> simp

@[simp] theorem commit_pending (s : State) (ch : Chan) (i : LetterIx) (l : Letter) (t : Take) :
    (s.commit ch i l t).pending = s.pending := by
  unfold State.commit
  simp only [applyHeld_pending]
  split <;> split <;> simp

@[simp] theorem takeEnd_pending (s : State) (ch : Chan) (serial : Nat) : (s.takeEnd ch serial).pending = s.pending := by
  unfold State.takeEnd
  split
  · rfl
  · split <;> simp

/-! ### Notices and conversions -/

/-- An operation that leaves the queue be on each channel leaves it be on every channel that a notice reaches. -/
theorem onReached_pending {f : Chan → State → State} (hf : ∀ ch t, (f ch t).pending = t.pending) (s : State) (n : DeviceNotice) :
    (s.onReached n f).pending = s.pending := by
  unfold State.onReached
  split
  · refine foldl_pending (fun t ch => ?_) _ s
    split
    · split
      · exact hf ch t
      · rfl
    · rfl
  · rfl

@[simp] theorem stopTakes_pending (s : State) (n : DeviceNotice) : (s.stopTakes n).pending = s.pending :=
  onReached_pending (fun ch t => forceStopTake_pending t ch _) s n

@[simp] theorem stopReviews_pending (s : State) (n : DeviceNotice) : (s.stopReviews n).pending = s.pending :=
  onReached_pending (fun ch t => deviceStopsReview_pending t ch _ _) s n

@[simp] theorem convert_pending (s : State) (n : Nat) : (s.convert n).pending = s.pending := by
  unfold State.convert
  split <;> simp

@[simp] theorem takeAnswer_pending (s : State) (n : Nat) (a : Option ReadContext) : (s.takeAnswer n a).pending = s.pending := by
  cases a <;> simp [State.takeAnswer]

/-! ### Requests to a channel's ring -/

@[simp] theorem popCapture_pending (s : State) (ch : Chan) : (s.popCapture ch).pending = s.pending := rfl

@[simp] theorem finishCapture_pending (s : State) (ch : Chan) : (s.finishCapture ch).pending = s.pending :=
  takeCaptureRequest_pending s ch .finishing

@[simp] theorem discardCapture_pending (s : State) (ch : Chan) : (s.discardCapture ch).pending = s.pending :=
  takeCaptureRequest_pending s ch .finishingDiscard

@[simp] theorem cancelCapture_pending (s : State) (ch : Chan) : (s.cancelCapture ch).pending = s.pending :=
  takeCaptureRequest_pending s ch .cancelled

end Sys2Proof.WaitingCommands
end
section
/-! Every command answers with a next state and leaves the queue of the waiting commands be, and a step runs the command at the front of the
queue (log entries 2 and 3). -/

namespace Sys2Proof.WaitingCommands

open Sys2Proof Sys2Proof.Machine

/-- An outcome is a next state, with the queue that a state has. -/
def AnswersWithQueueOf (s : State) (o : Host.Outcome State Fault Refusal) : Prop := ∃ t, o = .next t ∧ t.pending = s.pending

theorem next_answers {s t : State} (h : t.pending = s.pending) : AnswersWithQueueOf s (.next t) := ⟨t, rfl, h⟩

/-! ### The links -/

theorem frameReceived_answers (link : Link) (line : Arrival) (us : List Upset) (s : State) :
    AnswersWithQueueOf s (execFrameReceived link line us s) := by
  refine next_answers ?_
  split <;> simp

theorem signalLoss_answers (link : Link) (bytes : List Byte) (us : List Upset) (s : State) :
    AnswersWithQueueOf s (execSignalLoss link bytes us s) := by
  refine next_answers ?_
  split <;> simp

theorem stationFrameDropped_answers (kind : Byte) (rest : Byte × List Byte) (s : State) :
    AnswersWithQueueOf s (execStationFrameDropped kind rest s) := by
  refine next_answers ?_
  split <;> simp

theorem poolFrameDropped_answers (kind : Byte) (rest : Byte × List Byte) (s : State) :
    AnswersWithQueueOf s (execPoolFrameDropped kind rest s) := by
  refine next_answers ?_
  split <;> simp

/-! ### Requests and the reset event -/

theorem badRequest_answers (s : State) : AnswersWithQueueOf s (execBadRequest s) := by
  refine next_answers ?_
  split
  · rfl
  · split <;> simp

theorem resetEvent_answers (us : List Upset) (s : State) : AnswersWithQueueOf s (execResetEvent us s) := by
  refine next_answers ?_
  split <;> simp

/-! ### Timers and block memory -/

theorem idleExpiry_answers (ch : Chan) (s : State) : AnswersWithQueueOf s (execIdleExpiry ch s) := by
  refine next_answers ?_
  split
  · split <;> simp
  · rfl

theorem paceExpiry_answers (ch : Chan) (us : List Upset) (s : State) : AnswersWithQueueOf s (execPaceExpiry ch us s) := by
  refine next_answers ?_
  split
  · split <;> simp
  · rfl

theorem patrolVisit_answers (s : State) : AnswersWithQueueOf s (execPatrolVisit s) := by
  refine next_answers ?_
  split <;> simp

theorem accessTimeout_answers (s : State) : AnswersWithQueueOf s (execAccessTimeout s) := by
  refine next_answers ?_
  split <;> simp

theorem arbiterGrant_answers (s : State) : AnswersWithQueueOf s (execArbiterGrant s) := by
  refine next_answers ?_
  split <;> rfl

theorem initWriteComplete_answers (s : State) : AnswersWithQueueOf s (execInitWriteComplete s) := by
  refine next_answers ?_
  split <;> simp

theorem coderWriteComplete_answers (s : State) : AnswersWithQueueOf s (execCoderWriteComplete s) := by
  refine next_answers ?_
  split <;> simp

theorem playerReadComplete_answers (found : List BitError) (us : List Upset) (s : State) :
    AnswersWithQueueOf s (execPlayerReadComplete found us s) := by
  refine next_answers ?_
  split
  · dsimp only
    split <;> simp
  · rfl

theorem drainReadComplete_answers (found : List BitError) (s : State) : AnswersWithQueueOf s (execDrainReadComplete found s) := by
  refine next_answers ?_
  split <;> simp

theorem patrolReadComplete_answers (found : List BitError) (s : State) : AnswersWithQueueOf s (execPatrolReadComplete found s) := by
  refine next_answers ?_
  split <;> simp

/-! ### Messages between blocks -/

theorem coderService_answers (us : List Upset) (s : State) : AnswersWithQueueOf s (execCoderService us s) := by
  refine next_answers ?_
  split
  · rfl
  · split <;> simp

theorem blockOutcome_answers (ch : Chan) (s : State) : AnswersWithQueueOf s (execBlockOutcome ch s) := by
  refine next_answers ?_
  split <;> simp

theorem endOfTake_answers (ch : Chan) (us : List Upset) (s : State) : AnswersWithQueueOf s (execEndOfTake ch us s) := by
  refine next_answers ?_
  split <;> simp

theorem forceStop_answers (src : StopSource) (s : State) : AnswersWithQueueOf s (execForceStop src s) := by
  refine next_answers ?_
  cases src with
  | memory ch =>
    dsimp only
    split
    · split <;> simp
    · rfl
  | notice n =>
    dsimp only
    split <;> simp

theorem reviewStopped_answers (n : DeviceNotice) (us : List Upset) (s : State) :
    AnswersWithQueueOf s (execReviewStoppedByTheDevice n us s) := by
  refine next_answers ?_
  split <;> simp

theorem conversionRequest_answers (s : State) : AnswersWithQueueOf s (execConversionRequest s) := by
  refine next_answers ?_
  split <;> simp

theorem conversionAnswer_answers (s : State) : AnswersWithQueueOf s (execConversionAnswer s) := by
  refine next_answers ?_
  split <;> simp

theorem detection_answers (src : Detector) (s : State) : AnswersWithQueueOf s (execDetection src s) := by
  refine next_answers ?_
  split <;> simp

theorem noLiveLetterNotice_answers (ch : Chan) (us : List Upset) (s : State) :
    AnswersWithQueueOf s (execNoLiveLetterNotice ch us s) := by
  refine next_answers ?_
  split <;> simp

theorem takeFinishing_answers (ch : Chan) (s : State) : AnswersWithQueueOf s (execTakeFinishing ch s) := by
  refine next_answers ?_
  split <;> simp

theorem ringEmptying_answers (ch : Chan) (s : State) : AnswersWithQueueOf s (execRingEmptying ch s) := by
  refine next_answers ?_
  split <;> simp

/-! ### The drain -/

theorem letterHead_answers (s : State) : AnswersWithQueueOf s (execLetterHead s) := by
  refine next_answers ?_
  split <;> rfl

theorem bodyRecord_answers (s : State) : AnswersWithQueueOf s (execBodyRecord s) := by
  refine next_answers ?_
  split
  · rfl
  · split <;> rfl

theorem block_answers (s : State) : AnswersWithQueueOf s (execBlock s) := by
  refine next_answers ?_
  split
  · rfl
  · split <;> simp

theorem letterEnd_answers (s : State) : AnswersWithQueueOf s (execLetterEnd s) := by
  refine next_answers ?_
  split <;> simp

theorem letterResume_answers (s : State) : AnswersWithQueueOf s (execLetterResume s) := by
  refine next_answers ?_
  split <;> rfl

theorem letterAbandon_answers (s : State) : AnswersWithQueueOf s (execLetterAbandon s) := by
  refine next_answers ?_
  split <;> simp

theorem suspendedAbandon_answers (s : State) : AnswersWithQueueOf s (execSuspendedAbandon s) := by
  refine next_answers ?_
  split
  · rfl
  · split <;> simp

/-! ### Every command -/

/-- One case for each command; the keys share one operation, and the requests another. -/
theorem exec_answers (c : Instr) (s : State) : AnswersWithQueueOf s (exec c s) := by
  cases c with
  | powerOn => exact next_answers rfl
  | frameReceived link line us => exact frameReceived_answers link line us s
  | signalLoss link bytes us => exact signalLoss_answers link bytes us s
  | audio | key | mgmtRequest | pause | go => exact next_answers (hear_pending ..)
  | stationFrameDropped kind rest => exact stationFrameDropped_answers kind rest s
  | poolFrameDropped kind rest => exact poolFrameDropped_answers kind rest s
  | recordInsert | recordOverwrite | stop | cancelTake | rewind | forward | toStart | toEnd | review | endLetter | urgentOn | urgentOff
  | discardArm | discard | unknownKeyCode => exact next_answers (takeKey_pending ..)
  | badRequest => exact badRequest_answers s
  | identify | holdDrain | readFaults => exact next_answers (execute_pending (fun _ _ => rfl) s _)
  | readChannel => exact next_answers (execute_pending actReadChannel_pending s _)
  | writeChannel => exact next_answers (execute_pending actWriteChannel_pending s _)
  | readProfile => exact next_answers (execute_pending actReadProfile_pending s _)
  | writeProfile => exact next_answers (execute_pending actWriteProfile_pending s _)
  | clearProfile => exact next_answers (execute_pending actClearProfile_pending s _)
  | readLetter => exact next_answers (execute_pending actReadLetter_pending s _)
  | listLetters => exact next_answers (execute_pending actListLetters_pending s _)
  | forceClose => exact next_answers (execute_pending actForceClose_pending s _)
  | abortLetter => exact next_answers (execute_pending actAbortLetter_pending s _)
  | releaseDrain => exact next_answers (execute_pending actReleaseDrain_pending s _)
  | clearFaults => exact next_answers (execute_pending actClearFaults_pending s _)
  | setNotices => exact next_answers (execute_pending actSetNotices_pending s _)
  | readCounters => exact next_answers (execute_pending actReadCounters_pending s _)
  | clearCounters => exact next_answers (execute_pending actClearCounters_pending s _)
  | setLetterBase => exact next_answers (execute_pending actSetLetterBase_pending s _)
  | setPatrol => exact next_answers (execute_pending actSetPatrol_pending s _)
  | softReset => exact next_answers (executeSoftReset_pending s)
  | resetEvent us => exact resetEvent_answers us s
  | idleExpiry ch => exact idleExpiry_answers ch s
  | paceExpiry ch us => exact paceExpiry_answers ch us s
  | patrolVisit => exact patrolVisit_answers s
  | accessTimeout => exact accessTimeout_answers s
  | arbiterGrant => exact arbiterGrant_answers s
  | initWriteComplete => exact initWriteComplete_answers s
  | coderWriteComplete => exact coderWriteComplete_answers s
  | playerReadComplete found us => exact playerReadComplete_answers found us s
  | drainReadComplete found => exact drainReadComplete_answers found s
  | patrolReadComplete found => exact patrolReadComplete_answers found s
  | coderService us => exact coderService_answers us s
  | blockOutcome ch => exact blockOutcome_answers ch s
  | endOfTake ch us => exact endOfTake_answers ch us s
  | forceStop src => exact forceStop_answers src s
  | conversionRequest => exact conversionRequest_answers s
  | conversionAnswer => exact conversionAnswer_answers s
  | detection src => exact detection_answers src s
  | noLiveLetterNotice ch us => exact noLiveLetterNotice_answers ch us s
  | takeFinishing ch => exact takeFinishing_answers ch s
  | ringEmptying ch => exact ringEmptying_answers ch s
  | drainStart => exact next_answers (takeDrainStart_pending s)
  | letterHead => exact letterHead_answers s
  | bodyRecord => exact bodyRecord_answers s
  | block => exact block_answers s
  | letterEnd => exact letterEnd_answers s
  | letterResume => exact letterResume_answers s
  | suspension => exact next_answers (takeSuspension_pending s)
  | pendingAbort => exact next_answers (takeAbort_pending s)
  | letterAbandon => exact letterAbandon_answers s
  | suspendedAbandon => exact suspendedAbandon_answers s
  | stationFrameBoundary => exact next_answers rfl
  | poolFrameBoundary => exact next_answers (poolBoundary_pending s)
  | reviewStoppedByTheDevice n us => exact reviewStopped_answers n us s
  -- The one case left is RECALL, a key like the others; Mathlib has a command of the constructor's name, so it cannot be written here.
  | _ => exact next_answers (takeKey_pending ..)

/-- Settles O2: each command is an operation on the device's blocks, and none of these touches the queue. -/
theorem everyCommandAnswersAndLeavesTheQueue : Obligations.EveryCommandAnswersAndLeavesTheQueue := by
  unfold Obligations.EveryCommandAnswersAndLeavesTheQueue
  exact exec_answers

/-! ### The step -/

theorem step_waiting (c : Instr) (rest : List Instr) (s : State) :
    step { s with pending := c :: rest } = exec c { s with pending := rest } := rfl

theorem step_idle {s : State} (h : s.pending = []) : step s = .next s := by
  unfold step
  rw [h]

/-- Settles O1: one case for each form of the queue. -/
theorem stepRunsTheFrontCommand : Obligations.StepRunsTheFrontCommand := by
  unfold Obligations.StepRunsTheFrontCommand
  exact ⟨step_waiting, fun _ => step_idle⟩

end Sys2Proof.WaitingCommands
end
